-- ==== Sys2Proof/Word.lean ====
section
/-! DEFINITION. The word types: a byte (00_scope R10) and a signed 32-bit coordinate (R10, `i32`). -/

namespace Sys2Proof

/-- "A byte is an unsigned 8-bit value" (R10). -/
abbrev Byte := BitVec 8

/-- "A coordinate is a signed 32-bit integer" (R10); its number is `BitVec.toInt`. -/
abbrev Coord := BitVec 32

end Sys2Proof
end

