-- ==== Sys2Proof/Config.lean ====
section
/-! DEFINITION. What a build of the block fixes (00_scope R7, 10_state R21, R33) and the free values: the OPEN parameters,
the straps, the transport's answers (R12) and the values the spec leaves unspecified. A constant declared `opaque` has no
value that a proof can see. Fixed by the spec: WIDTH = HEIGHT = 128, PAGE_COUNT = 16, FB_LEN = 2048. -/

namespace Sys2Proof

/-- The control byte of a command frame, `0x00` or `0x80` (R7, R82). -/
inductive CtrlCmd where
  | c00
  | c80
  deriving DecidableEq, Repr, Inhabited

/-- The byte that `CTRL_CMD` stands for. -/
def CtrlCmd.byte : CtrlCmd → Byte
  | .c00 => 0x00
  | .c80 => 0x80

/-- `CTRL_DATA`, the control byte of a data frame: fixed (R7, R83). -/
def ctrlData : Byte := 0x40

/-- The scheduling binding (R7, R9). -/
inductive Binding where
  | sync
  | nonblocking
  deriving DecidableEq, Repr, Inhabited

/-- The parameters of the step relation that R7 marks OPEN, and `OBSERVER`. No step changes them (R33). -/
structure Params where
  /-- `TMAX`, "the transport's maximum single-write size", counting the control byte. -/
  tmax : Nat
  /-- `STAGE_CAP`, the capacity of the staging buffer. -/
  stageCap : Nat
  /-- `CTRL_CMD`. -/
  ctrlCmd : CtrlCmd
  /-- `BINDING`. -/
  binding : Binding
  /-- `OBSERVER`: true when one is present (R270). -/
  observer : Bool
  deriving DecidableEq, Repr

/-- The legal values of R7: `3 <= TMAX` and `STAGE_CAP >= 1`. -/
abbrev Params.legal (p : Params) : Prop := 3 ≤ p.tmax ∧ 1 ≤ p.stageCap

/-- "A configuration is well configured when `TMAX <= STAGE_CAP`" (R8). -/
abbrev Params.wellConfigured (p : Params) : Prop := p.tmax ≤ p.stageCap

/-- The nine configuration registers `CFG_*`, 50 bits in all (10_state R21). -/
structure Straps where
  clkFreq : BitVec 4
  clkRatio : BitVec 4
  offset : Byte
  contrast : Byte
  precharge : Byte
  vcom : Byte
  comPins : Byte
  segRemap : BitVec 1
  comRemap : BitVec 1
  deriving DecidableEq, Repr, Inhabited

/-- FREE VALUE: which numbers name an error value of the transport: the type `E` that R7 marks OPEN is an argument of the
model (D29, U4). DESIGN CHOICE, safe: log entry 7. -/
opaque Config.isBusError : Nat → Bool

/-- The opaque type `E` of the transport's error value `e` (R7, R254): the numbers that `Config.isBusError` admits, and 0, so
that it is finite or infinite and of any size from one value on. The block only carries a value, "compared only for equality"
(D29). Log entry 7. -/
abbrev BusError := { n : Nat // n = 0 ∨ Config.isBusError n = true }

/-- The answer to one `TransportWrite` (R12). -/
inductive Answer where
  | ok
  | err (e : BusError)
  deriving DecidableEq, Repr, Inhabited

/-- FREE VALUE: the answer to the `n`-th `TransportWrite` for which no answer is queued ("any value: an oracle draw per
write, under no law", U5). DESIGN CHOICE, safe: log entry 6. -/
opaque Config.transportAnswer : Nat → Answer

/-- FREE VALUE: how far `TMAX` lies above its least legal value in the machine that `State.reset` describes (OPEN, R7).
DESIGN CHOICE, safe: log entry 8. -/
opaque Config.tmaxAboveThree : Nat

/-- FREE VALUE: how far `STAGE_CAP` lies above its least legal value after reset (OPEN, R7). Log entry 8. -/
opaque Config.stageCapAboveOne : Nat

/-- FREE VALUE: `CTRL_CMD` after reset (OPEN, R7). Log entry 8. -/
opaque Config.ctrlCmd : CtrlCmd

/-- FREE VALUE: `BINDING` after reset (OPEN, R7). Log entry 8. -/
opaque Config.binding : Binding

/-- The parameters after reset: the OPEN ones free within their legal values, the observer "absent by default" (R7). -/
def Config.params : Params where
  tmax := Config.tmaxAboveThree + 3
  stageCap := Config.stageCapAboveOne + 1
  ctrlCmd := Config.ctrlCmd
  binding := Config.binding
  observer := false

/-- FREE VALUE: "the strap values; not changed by reset" (R34, D11). DESIGN CHOICE, safe: log entry 9. -/
opaque Config.straps : Straps

/-- `ADDR_DEFAULT`: "default `0x3C`" (R7, R22). -/
def Config.addrDefault : Byte := 0x3C

/-- `OP_COM_PINS`: the opcode of COM_PINS, "a configuration field `OP_COM_PINS` with default `0xDA`" (R155, D10).
PRESUMED, unsafe: log entry 10. -/
def Config.opComPins : Byte := 0xDA

/-- FREE VALUE: the byte at an index of `STAGE` that nothing has written since reset (R28, U15). Log entry 13. -/
opaque Config.stageByte : Nat → Byte

/-- FREE VALUE: the controller's display RAM at an index that R30 leaves unconstrained, after the `n`-th time its contents
became unknown (R30, U1, U8, U24). Log entry 11. -/
opaque Config.gddramByte : Nat → Nat → Byte

/-- FREE VALUE: the controller's page pointer where R30 leaves it unconstrained, after the `n`-th time the pointers became
unknown. Log entry 11. -/
opaque Config.gddramPage : Nat → BitVec 4

/-- FREE VALUE: the low nibble of the controller's column pointer where R30 leaves it unconstrained. Log entry 11. -/
opaque Config.gddramColLo : Nat → BitVec 4

/-- FREE VALUE: the high nibble of the controller's column pointer where R30 leaves it unconstrained. Log entry 11. -/
opaque Config.gddramColHi : Nat → BitVec 4

end Sys2Proof
end

