-- ==== Sys2Proof/Syntax.lean ====
section
/-! DEFINITION. The instructions: one constructor per row of spec/opcode_table.json (00_scope R4: catalog commands, control
bytes, host operations, framer procedures), and the form in which each is presented to the block. -/

namespace Sys2Proof

/-- One constructor per row of the opcode table, in the table's order. -/
inductive Instr where
  /-- DISPLAY_OFF, R131. -/
  | displayOff
  /-- DISPLAY_ON, R132. -/
  | displayOn
  /-- CONTRAST(level), R133. -/
  | contrast (level : Byte)
  /-- MULTIPLEX_RATIO(ratio), R134. -/
  | multiplexRatio (ratio : Byte)
  /-- DISPLAY_OFFSET(offset), R135. -/
  | displayOffset (offset : Byte)
  /-- START_LINE(line), R136. -/
  | startLine (line : Byte)
  /-- START_LINE_SHORT(line), R137. -/
  | startLineShort (line : Byte)
  /-- CLOCK_DIVIDE(freq, ratio), R138. -/
  | clockDivide (freq : Byte) (ratio : Byte)
  /-- CHARGE_PUMP_ON, R140. -/
  | chargePumpOn
  /-- CHARGE_PUMP_OFF, R141. -/
  | chargePumpOff
  /-- PRECHARGE(period), R142. -/
  | precharge (period : Byte)
  /-- VCOM_DESELECT(level), R143. -/
  | vcomDeselect (level : Byte)
  /-- SEGMENT_REMAP_NORMAL, R144. -/
  | segmentRemapNormal
  /-- SEGMENT_REMAP_REMAPPED, R145. -/
  | segmentRemapRemapped
  /-- COM_SCAN_NORMAL, R146. -/
  | comScanNormal
  /-- COM_SCAN_REMAPPED, R147. -/
  | comScanRemapped
  /-- ENTIRE_DISPLAY_RESUME, R148. -/
  | entireDisplayResume
  /-- ENTIRE_DISPLAY_FORCE, R149. -/
  | entireDisplayForce
  /-- DISPLAY_NORMAL, R150. -/
  | displayNormal
  /-- DISPLAY_INVERTED, R151. -/
  | displayInverted
  /-- PAGE_ADDRESS(page), R152. -/
  | pageAddress (page : Byte)
  /-- COLUMN_LOW(col), R153. -/
  | columnLow (col : Byte)
  /-- COLUMN_HIGH(col), R154. -/
  | columnHigh (col : Byte)
  /-- COM_PINS(config), R155. -/
  | comPins (config : Byte)
  /-- CTRL_COMMAND_00, R82. -/
  | ctrlCommand00
  /-- CTRL_COMMAND_80, R82. -/
  | ctrlCommand80
  /-- CTRL_DATA, R83. -/
  | ctrlData
  /-- CONNECT(addr), R231. -/
  | connect (addr : Byte)
  /-- BUILD, R232. -/
  | build
  /-- INITIALIZE, R190. -/
  | initializeOp
  /-- FLUSH, R210. -/
  | flush
  /-- SET_PIXEL(x, y, on), R111. -/
  | setPixel (x : Coord) (y : Coord) (on : Bool)
  /-- CLEAR(on), R114. -/
  | clear (on : Bool)
  /-- AS_BYTES, R115. -/
  | asBytes
  /-- CANCEL, R262. -/
  | cancel
  /-- DROP, R291. -/
  | drop
  /-- SEND_COMMAND(cmd), R172. -/
  | sendCommand (cmd : List Byte)
  /-- SEND_DATA(data), R173. -/
  | sendData (data : List Byte)
  deriving DecidableEq, Repr

/-- How an instruction is presented. "position within the frame decides, never the value" (30_encoding R89), so each of the
spec's levels (R80, R101) has its own form and no byte value is read at two levels. DESIGN CHOICE, safe: log entry 1. -/
inductive Request where
  /-- A host operation: the selector and, beside it, the operand lines of R100; an operation reads only the lines it has. -/
  | host (selector : BitVec 4) (addr : Byte) (x : Coord) (y : Coord) (on : Bool)
  /-- The bytes of a controller command, first byte first (R85). -/
  | command (bytes : List Byte)
  /-- Byte 0 of a frame (R82, R83). -/
  | control (byte : Byte)
  /-- A call of SEND_COMMAND: "no encoding" (R101), so the operand as it is. -/
  | sendCommand (cmd : List Byte)
  /-- A call of SEND_DATA: "no encoding" (R101). -/
  | sendData (data : List Byte)
  deriving DecidableEq, Repr

end Sys2Proof
end

