-- ==== Sys2Proof/WellFormed.lean ====
section
/-! DEFINITION. The operand domains the spec states for each instruction (30_encoding R86, 42_transport_framer R172). Where
a catalog operand leaves its domain the formulas still define the bytes (U16); only START_LINE_SHORT above 63 is refused
(R137, U13). -/

namespace Sys2Proof

/-- The operands lie in the domain the spec states. -/
def Instr.wf : Instr → Bool
  | .displayOff => true
  | .displayOn => true
  | .contrast _ => true
  | .multiplexRatio _ => true
  | .displayOffset _ => true
  | .startLine line => line.toNat ≤ 127
  | .startLineShort line => line.toNat ≤ 63
  | .clockDivide freq ratio => freq.toNat ≤ 15 && ratio.toNat ≤ 15
  | .chargePumpOn => true
  | .chargePumpOff => true
  | .precharge _ => true
  | .vcomDeselect _ => true
  | .segmentRemapNormal => true
  | .segmentRemapRemapped => true
  | .comScanNormal => true
  | .comScanRemapped => true
  | .entireDisplayResume => true
  | .entireDisplayForce => true
  | .displayNormal => true
  | .displayInverted => true
  | .pageAddress page => page.toNat ≤ 15
  | .columnLow col => col.toNat ≤ 127
  | .columnHigh col => col.toNat ≤ 127
  | .comPins _ => true
  | .ctrlCommand00 => true
  | .ctrlCommand80 => true
  | .ctrlData => true
  | .connect _ => true
  | .build => true
  | .initializeOp => true
  | .flush => true
  | .setPixel _ _ _ => true
  | .clear _ => true
  | .asBytes => true
  | .cancel => true
  | .drop => true
  | .sendCommand cmd => 1 ≤ cmd.length && cmd.length ≤ 2
  | .sendData _ => true

end Sys2Proof
end

