-- ==== Sys2Proof/Decode.lean ====
section
/-! DEFINITION. The encodings of 30_encoding and the Command Catalog of 41_command_catalog: the catalog's pure constructors,
the decoder (total on any bytes, rejecting by name), the encoder, and the reading of an opcode-table word. The block itself
"only encodes; it never decodes anything" (R80): the decoder reads what is presented to the block and what the controller
receives. -/

namespace Sys2Proof

/-! The Command Catalog (R130 to R155): "No state; pure encoding." Operand assembly is R86. -/

/-- R131. -/
def Catalog.displayOff : List Byte := [0xAE]
/-- R132. -/
def Catalog.displayOn : List Byte := [0xAF]
/-- R133. -/
def Catalog.contrast (level : Byte) : List Byte := [0x81, level]
/-- R134. -/
def Catalog.multiplexRatio (ratio : Byte) : List Byte := [0xA8, ratio]
/-- R135. -/
def Catalog.displayOffset (offset : Byte) : List Byte := [0xD3, offset]
/-- R136. -/
def Catalog.startLine (line : Byte) : List Byte := [0xDC, line &&& 0x7F]
/-- R137; only for `line` up to 63 (`execStartLineShort` refuses the others). -/
def Catalog.startLineShort (line : Byte) : List Byte := [0x40 ||| line]
/-- R138, with the masks of decision D12. -/
def Catalog.clockDivide (freq ratio : Byte) : List Byte := [0xD5, ((freq &&& 0x0F) <<< 4) ||| (ratio &&& 0x0F)]
/-- R140. -/
def Catalog.chargePumpOn : List Byte := [0xAD, 0x8B]
/-- R141; decision D9 takes `0x8A`. -/
def Catalog.chargePumpOff : List Byte := [0xAD, 0x8A]
/-- R142. -/
def Catalog.precharge (period : Byte) : List Byte := [0xD9, period]
/-- R143. -/
def Catalog.vcomDeselect (level : Byte) : List Byte := [0xDB, level]
/-- R144. -/
def Catalog.segmentRemapNormal : List Byte := [0xA0]
/-- R145. -/
def Catalog.segmentRemapRemapped : List Byte := [0xA1]
/-- R146. -/
def Catalog.comScanNormal : List Byte := [0xC0]
/-- R147: "the two COM-scan bytes differ in bit 3, not bit 0". -/
def Catalog.comScanRemapped : List Byte := [0xC8]
/-- R148. -/
def Catalog.entireDisplayResume : List Byte := [0xA4]
/-- R149. -/
def Catalog.entireDisplayForce : List Byte := [0xA5]
/-- R150. -/
def Catalog.displayNormal : List Byte := [0xA6]
/-- R151. -/
def Catalog.displayInverted : List Byte := [0xA7]
/-- R152. -/
def Catalog.pageAddress (page : Byte) : List Byte := [0xB0 ||| (page &&& 0x0F)]
/-- R153. -/
def Catalog.columnLow (col : Byte) : List Byte := [0x00 ||| (col &&& 0x0F)]
/-- R154. -/
def Catalog.columnHigh (col : Byte) : List Byte := [0x10 ||| ((col >>> 4) &&& 0x0F)]
/-- R155; the opcode is the configuration field `OP_COM_PINS` (D10). -/
def Catalog.comPins (config : Byte) : List Byte := [Config.opComPins, config]

/-! The decoder. -/

/-- Why bytes are no instruction. -/
inductive DecodeError where
  /-- No bytes. -/
  | empty
  /-- A first byte that R87's map does not list: "the source gives them no meaning" (R88 b). -/
  | reservedOpcode (op : Byte)
  /-- The number of bytes is not the one that the first byte calls for (R89). -/
  | wrongLength (op : Byte) (n : Nat)
  /-- An argument byte the row never produces (START_LINE with bit 7 set, `0xAD` without `0x8B` or `0x8A`; R88 d). -/
  | reservedArgument (op arg : Byte)
  /-- "Any control byte other than the value of `CTRL_CMD` and `0x40` is never emitted" (R84). -/
  | reservedControl (byte : Byte)
  /-- "Selector values 9 to 15 name no operation and are refused" (R100). -/
  | reservedSelector (n : Nat)
  deriving DecidableEq, Repr

/-- The outcome of decoding: an instruction, or a rejection by name. -/
inductive Decoded where
  | instr (i : Instr)
  | reject (e : DecodeError)
  deriving DecidableEq, Repr

/-- "first bytes `0x81`, `0xA8`, `0xAD`, `0xD3`, `0xD5`, `0xD9`, `0xDA`, `0xDB`, `0xDC` take one argument byte; all others
take none" (R89), the opcode of COM_PINS being `Config.opComPins`. -/
def takesArgument (op : Byte) : Bool :=
  op == 0x81 || op == 0xA8 || op == 0xAD || op == 0xD3 || op == 0xD5 || op == 0xD9 || op == 0xDB || op == 0xDC
    || op == Config.opComPins

/-- The one-byte commands, formats `C1` and `C1F` (R85, R87). -/
def decodeOneByte (b : Byte) : Decoded :=
  if b.toNat < 0x10 then .instr (.columnLow (b &&& 0x0F))
  else if b.toNat < 0x20 then .instr (.columnHigh ((b &&& 0x0F) <<< 4))
  else if 0x40 ≤ b.toNat ∧ b.toNat < 0x80 then .instr (.startLineShort (b &&& 0x3F))
  else if 0xB0 ≤ b.toNat ∧ b.toNat < 0xC0 then .instr (.pageAddress (b &&& 0x0F))
  else if b = 0xA0 then .instr .segmentRemapNormal
  else if b = 0xA1 then .instr .segmentRemapRemapped
  else if b = 0xA4 then .instr .entireDisplayResume
  else if b = 0xA5 then .instr .entireDisplayForce
  else if b = 0xA6 then .instr .displayNormal
  else if b = 0xA7 then .instr .displayInverted
  else if b = 0xAE then .instr .displayOff
  else if b = 0xAF then .instr .displayOn
  else if b = 0xC0 then .instr .comScanNormal
  else if b = 0xC8 then .instr .comScanRemapped
  else .reject (.reservedOpcode b)

/-- The two-byte commands, format `C2` (R85, R87). -/
def decodeTwoByte (op arg : Byte) : Decoded :=
  if op = 0x81 then .instr (.contrast arg)
  else if op = 0xA8 then .instr (.multiplexRatio arg)
  else if op = 0xD3 then .instr (.displayOffset arg)
  else if op = 0xDC then
    if arg.toNat < 0x80 then .instr (.startLine arg) else .reject (.reservedArgument op arg)
  else if op = 0xD5 then .instr (.clockDivide (arg >>> 4) (arg &&& 0x0F))
  else if op = 0xAD then
    if arg = 0x8B then .instr .chargePumpOn
    else if arg = 0x8A then .instr .chargePumpOff
    else .reject (.reservedArgument op arg)
  else if op = 0xD9 then .instr (.precharge arg)
  else if op = 0xDB then .instr (.vcomDeselect arg)
  else if op = Config.opComPins then .instr (.comPins arg)
  else .reject (.reservedOpcode op)

/-- A controller command: the payload of a command frame, whole ("the end of the transaction ends the frame", R89). -/
def decodeCommand : List Byte → Decoded
  | [] => .reject .empty
  | [b] => if takesArgument b then .reject (.wrongLength b 1) else decodeOneByte b
  | [op, arg] => if takesArgument op then decodeTwoByte op arg else .reject (.wrongLength op 2)
  | op :: _ :: _ :: rest => .reject (.wrongLength op (rest.length + 3))

/-- Byte 0 of a frame (R82, R83). -/
def decodeControl (b : Byte) : Decoded :=
  if b = 0x00 then .instr .ctrlCommand00
  else if b = 0x80 then .instr .ctrlCommand80
  else if b = 0x40 then .instr .ctrlData
  else .reject (.reservedControl b)

/-- A host operation by its selector (R100). -/
def decodeHost (selector : BitVec 4) (addr : Byte) (x y : Coord) (on : Bool) : Decoded :=
  match selector.toNat with
  | 0 => .instr (.connect addr)
  | 1 => .instr .build
  | 2 => .instr .initializeOp
  | 3 => .instr .flush
  | 4 => .instr (.setPixel x y on)
  | 5 => .instr (.clear on)
  | 6 => .instr .asBytes
  | 7 => .instr .cancel
  | 8 => .instr .drop
  | n => .reject (.reservedSelector n)

/-- The instruction that a request presents. -/
def decode : Request → Decoded
  | .host selector addr x y on => decodeHost selector addr x y on
  | .command bytes => decodeCommand bytes
  | .control byte => decodeControl byte
  | .sendCommand cmd => .instr (.sendCommand cmd)
  | .sendData data => .instr (.sendData data)

/-! The encoder. -/

/-- The bytes of a catalog command (R130); no bytes for an instruction that is none. -/
def commandBytes : Instr → List Byte
  | .displayOff => Catalog.displayOff
  | .displayOn => Catalog.displayOn
  | .contrast level => Catalog.contrast level
  | .multiplexRatio ratio => Catalog.multiplexRatio ratio
  | .displayOffset offset => Catalog.displayOffset offset
  | .startLine line => Catalog.startLine line
  | .startLineShort line => Catalog.startLineShort line
  | .clockDivide freq ratio => Catalog.clockDivide freq ratio
  | .chargePumpOn => Catalog.chargePumpOn
  | .chargePumpOff => Catalog.chargePumpOff
  | .precharge period => Catalog.precharge period
  | .vcomDeselect level => Catalog.vcomDeselect level
  | .segmentRemapNormal => Catalog.segmentRemapNormal
  | .segmentRemapRemapped => Catalog.segmentRemapRemapped
  | .comScanNormal => Catalog.comScanNormal
  | .comScanRemapped => Catalog.comScanRemapped
  | .entireDisplayResume => Catalog.entireDisplayResume
  | .entireDisplayForce => Catalog.entireDisplayForce
  | .displayNormal => Catalog.displayNormal
  | .displayInverted => Catalog.displayInverted
  | .pageAddress page => Catalog.pageAddress page
  | .columnLow col => Catalog.columnLow col
  | .columnHigh col => Catalog.columnHigh col
  | .comPins config => Catalog.comPins config
  | .ctrlCommand00 => []
  | .ctrlCommand80 => []
  | .ctrlData => []
  | .connect _ => []
  | .build => []
  | .initializeOp => []
  | .flush => []
  | .setPixel _ _ _ => []
  | .clear _ => []
  | .asBytes => []
  | .cancel => []
  | .drop => []
  | .sendCommand _ => []
  | .sendData _ => []

/-- A host operation without operands. -/
def hostCall (selector : BitVec 4) : Request := .host selector 0 0 0 false

/-- The request that presents an instruction; a host operation leaves the operand lines it does not read at zero. -/
def encode : Instr → Request
  | .ctrlCommand00 => .control 0x00
  | .ctrlCommand80 => .control 0x80
  | .ctrlData => .control 0x40
  | .connect addr => .host 0 addr 0 0 false
  | .build => hostCall 1
  | .initializeOp => hostCall 2
  | .flush => hostCall 3
  | .setPixel x y on => .host 4 0 x y on
  | .clear on => .host 5 0 0 0 on
  | .asBytes => hostCall 6
  | .cancel => hostCall 7
  | .drop => hostCall 8
  | .sendCommand cmd => .sendCommand cmd
  | .sendData data => .sendData data
  | .displayOff => .command (commandBytes .displayOff)
  | .displayOn => .command (commandBytes .displayOn)
  | .contrast level => .command (commandBytes (.contrast level))
  | .multiplexRatio ratio => .command (commandBytes (.multiplexRatio ratio))
  | .displayOffset offset => .command (commandBytes (.displayOffset offset))
  | .startLine line => .command (commandBytes (.startLine line))
  | .startLineShort line => .command (commandBytes (.startLineShort line))
  | .clockDivide freq ratio => .command (commandBytes (.clockDivide freq ratio))
  | .chargePumpOn => .command (commandBytes .chargePumpOn)
  | .chargePumpOff => .command (commandBytes .chargePumpOff)
  | .precharge period => .command (commandBytes (.precharge period))
  | .vcomDeselect level => .command (commandBytes (.vcomDeselect level))
  | .segmentRemapNormal => .command (commandBytes .segmentRemapNormal)
  | .segmentRemapRemapped => .command (commandBytes .segmentRemapRemapped)
  | .comScanNormal => .command (commandBytes .comScanNormal)
  | .comScanRemapped => .command (commandBytes .comScanRemapped)
  | .entireDisplayResume => .command (commandBytes .entireDisplayResume)
  | .entireDisplayForce => .command (commandBytes .entireDisplayForce)
  | .displayNormal => .command (commandBytes .displayNormal)
  | .displayInverted => .command (commandBytes .displayInverted)
  | .pageAddress page => .command (commandBytes (.pageAddress page))
  | .columnLow col => .command (commandBytes (.columnLow col))
  | .columnHigh col => .command (commandBytes (.columnHigh col))
  | .comPins config => .command (commandBytes (.comPins config))

/-- The operands that the encoding determines: the masks of R86 drop the rest ("COLUMN_LOW determines only `col & 0x0F` and
COLUMN_HIGH only `col >> 4`", R156; outside the domains the other masks drop bits too, U16). -/
def Instr.canon : Instr → Instr
  | .startLine line => .startLine (line &&& 0x7F)
  | .clockDivide freq ratio => .clockDivide (freq &&& 0x0F) (ratio &&& 0x0F)
  | .pageAddress page => .pageAddress (page &&& 0x0F)
  | .columnLow col => .columnLow (col &&& 0x0F)
  | .columnHigh col => .columnHigh (col &&& 0xF0)
  | i => i

/-! The opcode table's words. -/

/-- The instructions that a value of a row's own `width` may be (R85): width 4 is a host selector, width 8 a command byte or a
control byte, width 16 the two bytes of a command, `(byte0 << 8) | byte1`. One value of width 8 can be two instructions, one
for each position it may stand in (R89). -/
def wordReadings (width w : Nat) : List Instr :=
  let requests :=
    match width with
    | 4 => [hostCall (BitVec.ofNat 4 w)]
    | 8 => [.command [BitVec.ofNat 8 w], .control (BitVec.ofNat 8 w)]
    | 16 => [.command [BitVec.ofNat 8 (w / 256), BitVec.ofNat 8 w]]
    | _ => []
  requests.filterMap fun r =>
    match decode r with
    | .instr i => some i
    | .reject _ => none

/-- The request of a table word whose length is known in whole bytes only: `nbits` is not the row's `width` of R85, for a host
selector's 4 bits and a command's 8 both arrive as one byte. One byte that is 0 to 8 is taken for a selector, then `0x40` and
`0x80` for control bytes, any other for a command; a word of 4 bits or less is a selector. `wordReadings` gives every reading
by the row's own width. DESIGN CHOICE, safe: log entry 18. -/
def tableRequest (nbits w : Nat) : Request :=
  if nbits = 0 then .command []
  else if nbits ≤ 4 then hostCall (BitVec.ofNat 4 w)
  else if nbits ≤ 8 then
    if w ≤ 8 then hostCall (BitVec.ofNat 4 w)
    else if w = 0x40 ∨ w = 0x80 then .control (BitVec.ofNat 8 w)
    else .command [BitVec.ofNat 8 w]
  else .command [BitVec.ofNat 8 (w / 256), BitVec.ofNat 8 w]

/-- The instruction that the decoder reads from a word of the opcode table. -/
def decodeTableWord (nbits w : Nat) : Option Instr :=
  match decode (tableRequest nbits w) with
  | .instr i => some i
  | .reject _ => none

end Sys2Proof
end

