-- ==== Sys2Proof/Machine/Memory.lean ====
section
/-! DEFINITION. Byte memories as lists of (address, byte) in one canonical form, the framebuffer's reads and writes over them
(20_memory R50, R51, R59), and the partial MemRead and MemWrite of 00_scope R11. -/

namespace Sys2Proof.Machine

/-- The listed byte at an address. -/
def Cells.lookup : List Host.Cell → Nat → Option Byte
  | [], _ => none
  | (a, b) :: m, i => if i = a then some b else Cells.lookup m i

/-- List the byte `v` at address `i`, in its place by rising address. -/
def Cells.insert (i : Nat) (v : Byte) : List Host.Cell → List Host.Cell
  | [] => [(i, v)]
  | (a, b) :: m =>
    if i < a then (i, v) :: (a, b) :: m
    else if i = a then (i, v) :: m
    else (a, b) :: Cells.insert i v m

/-- List nothing at address `i`. -/
def Cells.erase (i : Nat) : List Host.Cell → List Host.Cell
  | [] => []
  | (a, b) :: m => if i = a then m else (a, b) :: Cells.erase i m

/-- The cells below address `n`. -/
def Cells.keepBelow (n : Nat) (m : List Host.Cell) : List Host.Cell :=
  m.filter fun c => c.1 < n

/-- Addresses strictly rising, from `lo` on, and below 2048. -/
def Cells.rising : Nat → List Host.Cell → Bool
  | _, [] => true
  | lo, (a, _) :: m => lo ≤ a && a < 2048 && Cells.rising (a + 1) m

/-- The canonical form of the framebuffer: addresses strictly rising in the index space 0 to 2047 (R51), and no entry equal to
the reset contents `0x00` (R34), which an unlisted index reads as. -/
def Memory.wf (m : List Host.Cell) : Bool :=
  Cells.rising 0 m && m.all fun c => c.2 != 0

/-- `FB[i]`: an unlisted index holds the reset contents `0x00` (R34). -/
def readByte (m : List Host.Cell) (i : Nat) : Byte := (Cells.lookup m i).getD 0

/-- `FB[i] <- v`, keeping the canonical form. -/
def writeByte (m : List Host.Cell) (i : Nat) (v : Byte) : List Host.Cell :=
  if v = 0 then Cells.erase i m else Cells.insert i v m

/-- `FB[a + k] <- v[k]` for each `k`. -/
def writeBytes : List Host.Cell → Nat → List Byte → List Host.Cell
  | m, _, [] => m
  | m, a, v :: rest => writeBytes (writeByte m a v) (a + 1) rest

/-- `MemRead(a, n)`: "Admitted only when `0 <= a` and `a + n <= 2048`" (R11). -/
def memRead (m : List Host.Cell) (a n : Nat) : Option (List Byte) :=
  if a + n ≤ 2048 then some ((List.range n).map fun k => readByte m (a + k)) else none

/-- `MemWrite(a, n, v)`, `n` being the number of bytes `v` (R11). -/
def memWrite (m : List Host.Cell) (a : Nat) (v : List Byte) : Option (List Host.Cell) :=
  if a + v.length ≤ 2048 then some (writeBytes m a v) else none

/-- The framebuffer with every one of its 2048 bytes equal to `v` (R114). -/
def filled (v : Byte) : List Host.Cell :=
  if v = 0 then [] else (List.range 2048).map fun i => (i, v)

end Sys2Proof.Machine
end

