-- ==== Sys2Proof/Machine/State.lean ====
section
/-! DEFINITION. The state of the block as plain data (10_state R20 to R34), the reasons a step can stop, and the state after
reset. INVENTORY.md lists every field with its rule. -/

namespace Sys2Proof.Machine

/-- Who started the initialise walk (R24): INITIALIZE or BUILD. -/
inductive Ctx where
  | host
  | build
  deriving DecidableEq, Repr

/-- The phase `ph` of FLUSH within a page, with the offset `o` of the DATA phase: "`o = 0` unless `ph = DATA`" (R24). -/
inductive Phase where
  | page
  | colLo
  | colHi
  | data (o : Fin 128)
  deriving DecidableEq, Repr

/-- The sequencer position `SEQ`, the block's program counter (R24). -/
inductive Seq where
  | idle
  | init (ctx : Ctx) (k : Fin 15)
  | flush (p : Fin 16) (ph : Phase)
  deriving DecidableEq, Repr

/-- Why a frame failed (R171): the framer's two errors, and the cause that InitializationFailed wraps (R252). -/
inductive Cause where
  /-- PayloadOverflow(n): a frame of `n` bytes does not fit the staging buffer (R253). -/
  | payloadOverflow (n : Nat)
  /-- TransportError(e): a `TransportWrite` answered `Err(e)` (R254). -/
  | transportError (e : BusError)
  deriving DecidableEq, Repr

/-- How a frame, or a framer procedure, ended (R170). -/
inductive FrameEnd where
  | ok
  | err (c : Cause)
  deriving DecidableEq, Repr

/-- The four kinds of error with their `info` (60_exceptions R250). They are values of `RESULT`; none stops the machine. -/
inductive Error where
  | noBusConnected
  | initializationFailed (cause : Cause)
  | payloadOverflow (n : Nat)
  | transportError (e : BusError)
  deriving DecidableEq, Repr

/-- `RESULT` (R27). -/
inductive Result where
  | none
  | ok
  | cancelled
  | err (error : Error)
  deriving DecidableEq, Repr

/-- The reason held in `Failed` (R25). -/
inductive FailReason where
  | noBusConnected
  | initializationFailed
  deriving DecidableEq, Repr

/-- `BSTATE` (R25). -/
inductive BState where
  | unconfigured
  | configured
  | built
  | failed (reason : FailReason)
  deriving DecidableEq, Repr

/-- One entry of `WIRE`: one `TransportWrite` and its answer (R29). -/
structure WireEntry where
  addr : Byte
  bytes : List Byte
  answer : Answer
  deriving DecidableEq, Repr

/-- One call of the observer (R270). -/
inductive ObserverCall where
  | onCommand (frame : List Byte)
  | onTransportResult (answer : Answer)
  deriving DecidableEq, Repr

/-- How much of what R30's assumption determines counts as known. -/
inductive Reliance where
  /-- All of it. -/
  | full
  /-- After an operation that ended in an error: the cells below index `n` and nothing else, "only a later FLUSH that ends
  `OK` restores it" (20_memory R68, 93_implementation_defined U1, U7). -/
  | below (n : Nat)
  /-- After a CANCEL, or a DROP of a running operation: nothing, "until a later FLUSH ends `OK`" (44_flush R218, U8). -/
  | unknown
  deriving DecidableEq, Repr

/-- The controller's display RAM and pointers under the assumption of R30, outside the block and read by nothing in it. A
cell that is not listed, and a pointer that is `none`, is one the spec leaves unconstrained: it holds the free value that
`Controller.cell`, `Controller.pageValue`, `Controller.columnLow` and `Controller.columnHigh` give it. While `reliance` is not
`full`, what is listed is kept for the day a FLUSH ends `OK`, and `Controller.known` is what counts. Log entries 11 and 29. -/
structure Controller where
  /-- `GDDRAM[page][col]` at index `128 * page + col`: the cells that R30 determines, in rising order. -/
  ram : List Host.Cell
  /-- `cpage`. -/
  page : Option (BitVec 4)
  /-- The low nibble of `ccol`. -/
  colLo : Option (BitVec 4)
  /-- The high nibble of `ccol`. -/
  colHi : Option (BitVec 4)
  /-- How often the cells became unconstrained: the counter of their free values. -/
  epoch : Nat
  /-- How often the pointers became unconstrained: the counter of their free values. -/
  pointerEpoch : Nat
  /-- How much of the above counts as known (R68, R218, R262). -/
  reliance : Reliance
  deriving DecidableEq, Repr

/-- What the most recent operation that returns something handed to its caller: the bytes of AS_BYTES, of a catalog command
or of a control byte, or a framer procedure's end. The model's own record: log entry 5. -/
inductive Ret where
  | nothing
  | bytes (b : List Byte)
  | framer (r : FrameEnd)
  deriving DecidableEq, Repr

/-- When a call is presented: as soon as the block is idle (the way a caller waits for the running operation to return), or
once the sequencer has made `n` more steps, busy or not. DESIGN CHOICE, safe: log entry 2. -/
inductive Timing where
  | whenIdle
  | after (n : Nat)
  deriving DecidableEq, Repr

/-- A call presented to the block: what, and when. -/
structure Call where
  timing : Timing
  request : Request
  deriving DecidableEq, Repr

/-- The state: R20's components, the parameters of R33 as constant fields, and the model's own records and inputs. -/
structure State where
  /-- `FB`: the bytes that are not `0x00`, in rising order of index; an unlisted index reads `0x00` (R31, R34). -/
  fb : List Host.Cell
  /-- The nine `CFG_*` registers (R21); no step writes them. -/
  cfg : Straps
  /-- `ADDR` (R22). -/
  addr : Byte
  /-- `BUS_PRESENT` (R23). -/
  busPresent : Bool
  /-- `BSTATE` (R25). -/
  bstate : BState
  /-- `SEQ` (R24); `BUSY` is derived from it (R26). -/
  seq : Seq
  /-- `RESULT` (R27). -/
  result : Result
  /-- `STAGE` (R28): the bytes written since reset, index 0 first; those after them are unspecified. -/
  stage : List Byte
  /-- `STAGE_LEN` (R28). -/
  stageLen : Nat
  /-- `WIRE`, oldest first (R29). -/
  wire : List WireEntry
  /-- The length `WIRE` had at the most recent reset: "`WIRE` since reset" is what lies beyond it (R29). Model's own. -/
  wireBase : Nat
  /-- The controller's RAM and pointers (R30). -/
  ctl : Controller
  /-- The parameters (R7, R33); no step writes them. -/
  params : Params
  /-- What the observer was told, oldest first (R270). Model's own record: log entry 15. -/
  observed : List ObserverCall
  /-- What was returned to the caller. Model's own record: log entry 5. -/
  ret : Ret
  /-- The transport's queued answers, next first (R12). Model's own input: log entry 6. -/
  answers : List Answer
  /-- How many answers were drawn from the free value `Config.transportAnswer`. Model's own: log entry 6. -/
  draws : Nat
  /-- The calls presented to the block, next first (R14, R100). Model's own input: log entry 1. -/
  port : List Call
  deriving DecidableEq, Repr

/-- Why the machine stops with a fault. -/
inductive Fault where
  /-- A refused `MemRead` (R51: "refuse an out-of-range request"): raised by the sequencer's DATA step and by AS_BYTES if
  they asked for framebuffer bytes outside 0 to 2047. Safe; no step of a run raises it (Obligations.StepNeverFaults). -/
  | fbOutOfRange (index count : Nat)
  deriving DecidableEq, Repr

/-- Why an instruction is refused; no refusal changes state. -/
inductive Refusal where
  /-- An instruction without a meaning. Safe: the machine stops. No arm of `exec` answers it. -/
  | notModelled (mnemonic : String)
  /-- A "no" cell of the admission table (R238, U12, D14): raised by the host operations and, by their session argument, the
  framer procedures. Safe of a block driven as R238 asks; a block given such a call is outside every claim. Log entry 3. -/
  | notAdmitted (op : Instr)
  /-- Bytes or a selector that are no instruction (R88, R100, U17): raised by the step. Safe: the machine stops. -/
  | undecodable (e : DecodeError)
  /-- START_LINE_SHORT above 63 (R137, U13). Safe: the machine stops. -/
  | startLineShortDomain (line : Byte)
  /-- SEND_COMMAND of no bytes (R179, U14). Safe: the machine stops. -/
  | emptyCommand
  /-- SEND_COMMAND of more bytes than one frame holds (R180, U14). Safe: the machine stops. -/
  | commandTooLong (length : Nat)
  deriving DecidableEq, Repr

/-- The controller when nothing about it is determined: "not reset by the block; unspecified" (R34). -/
def Controller.unknown : Controller :=
  { ram := [], page := none, colLo := none, colHi := none, epoch := 0, pointerEpoch := 0,
    reliance := .full }

/-- The state right after power-on (R34). -/
def State.reset : State where
  fb := []
  cfg := Config.straps
  addr := Config.addrDefault
  busPresent := false
  bstate := .unconfigured
  seq := .idle
  result := .none
  stage := []
  stageLen := 0
  wire := []
  wireBase := 0
  ctl := Controller.unknown
  params := Config.params
  observed := []
  ret := .nothing
  answers := []
  draws := 0
  port := []

end Sys2Proof.Machine
end

