-- ==== Sys2Proof/Machine/Controller.lean ====
section
/-! DEFINITION. The external component of 10_state R30: what the controller's display RAM and pointers hold, as far as the
assumption "a page-address command sets `cpage`, the two column commands set the low and high nibbles of `ccol`, and each data
byte is stored at `GDDRAM[cpage][ccol]` and then increments `ccol`" determines it. Log entries 11, 12 and 29. -/

namespace Sys2Proof.Machine

/-- What counts as known: everything determined, or after an operation that was cancelled or failed, until a FLUSH ends `OK`,
nothing or only the cells that U1 keeps (20_memory R68, 44_flush R218, 60_exceptions R262). -/
def Controller.known (c : Controller) : Controller :=
  match c.reliance with
  | .full => c
  | .below n => { c with ram := Cells.keepBelow n c.ram, page := none, colLo := none, colHi := none }
  | .unknown => { c with ram := [], page := none, colLo := none, colHi := none }

/-- `GDDRAM[i / 128][i % 128]`: the determined byte, or the free value. -/
def Controller.cell (c : Controller) (i : Nat) : Byte :=
  (Cells.lookup c.ram i).getD (Config.gddramByte c.epoch i)

/-- `cpage`: the determined page, or the free value. -/
def Controller.pageValue (c : Controller) : BitVec 4 := c.page.getD (Config.gddramPage c.pointerEpoch)

/-- The low nibble of `ccol`: determined, or the free value. -/
def Controller.columnLow (c : Controller) : BitVec 4 := c.colLo.getD (Config.gddramColLo c.pointerEpoch)

/-- The high nibble of `ccol`: determined, or the free value. -/
def Controller.columnHigh (c : Controller) : BitVec 4 := c.colHi.getD (Config.gddramColHi c.pointerEpoch)

/-- `ccol`, of its two nibbles. -/
def Controller.columnValue (c : Controller) : Byte := c.columnHigh ++ c.columnLow

/-- Neither pointer is determined any more; the cells are as they were. -/
def Controller.forgetPointers (c : Controller) : Controller :=
  { c with page := none, colLo := none, colHi := none, pointerEpoch := c.pointerEpoch + 1 }

/-- Nothing about the controller is determined any more (R30). -/
def Controller.forget (c : Controller) : Controller :=
  { c.forgetPointers with ram := [], epoch := c.epoch + 1 }

/-- An operation failed: only the cells below index `n` stay determined (U1: "the pages whose frames were all answered `Ok` hold
the bytes sent"), and nothing else counts as known until a FLUSH ends `OK` (R68). What a CANCEL made unknown stays so (R218,
U8). DESIGN CHOICE where both speak, safe: log entry 29. -/
def Controller.fail (n : Nat) (c : Controller) : Controller :=
  { c.forget with
    ram := Cells.keepBelow n c.ram
    reliance := match c.reliance with
      | .full => .below n
      | .below _ => .below n
      | .unknown => .unknown }

/-- A running operation was cancelled or dropped: nothing is determined, and nothing counts as known until a FLUSH ends `OK`
(R32, R218, R262, U8). -/
def Controller.cancel (c : Controller) : Controller := { c.forget with reliance := .unknown }

/-- A FLUSH ended `OK`: what its frames determined counts as known again (R68, R218). -/
def Controller.settle (c : Controller) : Controller := { c with reliance := .full }

/-- While not everything counts as known, each frame may have changed any of the rest: the free values are new ones. -/
def Controller.redraw (c : Controller) : Controller :=
  match c.reliance with
  | .full => c
  | .below _ => { c with epoch := c.epoch + 1, pointerEpoch := c.pointerEpoch + 1 }
  | .unknown => { c with epoch := c.epoch + 1, pointerEpoch := c.pointerEpoch + 1 }

/-- One data byte: stored at `GDDRAM[cpage][ccol]`, then `ccol` increments (R30). "what `ccol` does past 127" is unconstrained,
and whether `cpage` moves there is not in the source (N9): both pointers are free after column 127, and a byte sent to a column
above 127 leaves everything free. DESIGN CHOICE, safe: log entry 11. -/
def Controller.store (c : Controller) (b : Byte) : Controller :=
  let col := c.columnValue.toNat
  if 127 < col then c.forget
  else
    let stored := { c with ram := Cells.insert (c.pageValue.toNat * 128 + col) b c.ram }
    if col = 127 then stored.forgetPointers
    else { stored with colLo := some (BitVec.ofNat 4 (col + 1)), colHi := some (BitVec.ofNat 4 ((col + 1) / 16)) }

/-- One command. "what the other commands do" is unconstrained (R30, R88 b). -/
def Controller.command (c : Controller) (payload : List Byte) : Controller :=
  match decodeCommand payload with
  | .instr (.pageAddress page) => { c with page := some (page.setWidth 4) }
  | .instr (.columnLow col) => { c with colLo := some (col.setWidth 4) }
  | .instr (.columnHigh col) => { c with colHi := some ((col >>> 4).setWidth 4) }
  | _ => c.forget

/-- What a frame does under R30's assumption: the control byte says what follows (R81). -/
def Controller.take (c : Controller) : List Byte → Controller
  | [] => c
  | ctrl :: payload => if ctrl = ctrlData then payload.foldl Controller.store c else c.command payload

/-- One frame that the transport answered `Ok`. It never makes more count as known: after a CANCEL or a failure only the end of
a FLUSH does (`Controller.settle`). -/
def Controller.receive (c : Controller) (frame : List Byte) : Controller := (c.take frame).redraw

/-- After an operation that ended at position `seq` in an error: a failed FLUSH leaves the pages before its own known (U1), a
failed walk nothing (U7). Log entry 12. -/
def Controller.afterFailure (c : Controller) : Seq → Controller
  | .idle => c
  | .init _ _ => c.fail 0
  | .flush p _ => c.fail (128 * p.val)

/-- After an operation was cancelled or dropped at position `seq`: "the controller's contents after a CANCEL as unknown"
(R262, R291); an idle block has nothing in flight. -/
def Controller.afterCancel (c : Controller) : Seq → Controller
  | .idle => c
  | .init _ _ => c.cancel
  | .flush _ _ => c.cancel

/-- `GDDRAM[i / 128][i % 128]` as far as it counts as known, else a free value. -/
def State.gddram (s : State) (i : Nat) : Byte := s.ctl.known.cell i

/-- `cpage` as far as it counts as known, else a free value. -/
def State.cpage (s : State) : BitVec 4 := s.ctl.known.pageValue

/-- `ccol` as far as it counts as known, else free nibbles. -/
def State.ccol (s : State) : Byte := s.ctl.known.columnValue

end Sys2Proof.Machine
end

