-- ==== Sys2Proof/Machine/Flags.lean ====
section
/-! DEFINITION. The derived flag BUSY (10_state R26), the admission conditions of the host operations (45_builder R238) and the
numeric view of RESULT (60_exceptions R250). -/

namespace Sys2Proof.Machine

/-- `BUSY`: "`1` exactly when `SEQ != IDLE`" (R26). -/
def State.busy (s : State) : Bool :=
  match s.seq with
  | .idle => false
  | .init _ _ => true
  | .flush _ _ => true

/-- Admission of CONNECT and BUILD: "`BSTATE` is `Unconfigured` or `Configured`, and `BUSY = 0`" (R231, R232). -/
def State.builderIdle (s : State) : Bool :=
  !s.busy && (s.bstate == .unconfigured || s.bstate == .configured)

/-- Admission of INITIALIZE, FLUSH, SET_PIXEL, CLEAR and AS_BYTES: "`BSTATE = Built` and `BUSY = 0`" (R110, R190, R210). -/
def State.sessionIdle (s : State) : Bool :=
  !s.busy && s.bstate == .built

/-- Admission of CANCEL: "`BINDING = nonblocking` and `BUSY = 1`" (R262). -/
def State.cancellable (s : State) : Bool :=
  s.busy && s.params.binding == .nonblocking

/-- A walk started by BUILD is running. -/
def Seq.isBuildWalk : Seq → Bool
  | .init .build _ => true
  | .init .host _ => false
  | .idle => false
  | .flush _ _ => false

/-- The framer's errors as values of RESULT, "passed through unchanged (not wrapped)" (R210, R215). -/
def Cause.toError : Cause → Error
  | .payloadOverflow n => .payloadOverflow n
  | .transportError e => .transportError e

/-- The numeric code of `RESULT` (R250, D15); `NONE` and `CANCELLED` have none. -/
def Result.code : Result → Option Nat
  | .none => Option.none
  | .ok => some 0
  | .cancelled => Option.none
  | .err .noBusConnected => some 1
  | .err (.initializationFailed _) => some 2
  | .err (.payloadOverflow _) => some 3
  | .err (.transportError _) => some 4

end Sys2Proof.Machine
end

