-- ==== Sys2Proof/Machine/Ops.lean ====
section
/-! DEFINITION. The named operations that meanings and sequencer steps are made of: returning bytes, `TransportWrite` (00_scope
R12) and `emit` (42_transport_framer R171), accepting an operation, `raise` (60_exceptions R256), completing a walk
(43_initialize R195), and reset by DROP (70_reset_and_hazards R291). -/

namespace Sys2Proof.Machine

/-- Replace the framebuffer. -/
def State.setFb (s : State) (fb : List Host.Cell) : State := { s with fb := fb }

/-- Hand bytes to the caller; nothing else changes. -/
def State.returnBytes (s : State) (b : List Byte) : State := { s with ret := .bytes b }

/-! Sending one frame. -/

/-- The transport's answer to the next `TransportWrite`: the queued one, else a free value (R12, U5). -/
def State.nextAnswer (s : State) : Answer :=
  match s.answers with
  | a :: _ => a
  | [] => Config.transportAnswer s.draws

/-- The next answer is used up. -/
def State.takeAnswer (s : State) : State :=
  match s.answers with
  | _ :: rest => { s with answers := rest }
  | [] => { s with draws := s.draws + 1 }

/-- `STAGE[0 .. n) <- frame; STAGE_LEN <- n` (R171). -/
def State.stageFrame (s : State) (frame : List Byte) : State :=
  { s with stage := frame ++ s.stage.drop frame.length, stageLen := frame.length }

/-- `STAGE[i]`: the byte written since reset, or the unspecified value (R28, U15). -/
def State.stageByte (s : State) (i : Nat) : Byte := s.stage.getD i (Config.stageByte i)

/-- A call of the observer, if one is present (R270). -/
def State.notify (s : State) (call : ObserverCall) : State :=
  if s.params.observer then { s with observed := s.observed ++ [call] } else s

/-- `TransportWrite(ADDR, frame)` with its entry in `WIRE` (R12, R29). A frame answered `Ok` reached the controller (R30). -/
def State.transportWrite (s : State) (frame : List Byte) : State :=
  { s.takeAnswer with
    wire := s.wire ++ [{ addr := s.addr, bytes := frame, answer := s.nextAnswer }]
    ctl := match s.nextAnswer with
      | .ok => s.ctl.receive frame
      | .err _ => s.ctl }

/-- How a `TransportWrite` ends its frame (R171). -/
def answerEnd : Answer → FrameEnd
  | .ok => .ok
  | .err e => .err (.transportError e)

/-- Stage a frame that fits and send it (R171, the part after the capacity check). -/
def State.sendFrame (s : State) (frame : List Byte) : State :=
  (((s.stageFrame frame).notify (.onCommand frame)).transportWrite frame).notify (.onTransportResult s.nextAnswer)

/-- `emit(ctrl, payload)` (R171): the capacity check comes first, and a frame that does not fit leaves everything as it was. -/
def emit (ctrl : Byte) (payload : List Byte) (s : State) : State × FrameEnd :=
  if s.params.stageCap < 1 + payload.length then (s, .err (.payloadOverflow (1 + payload.length)))
  else (s.sendFrame (ctrl :: payload), answerEnd s.nextAnswer)

/-! Accepting, ending and aborting an operation. -/

/-- An operation is accepted: `RESULT <- NONE` and `SEQ` at its first frame (R193, R212, R233). -/
def State.accept (s : State) (start : Seq) : State := { s with result := .none, seq := start }

/-- `raise Error(info)`, the abort: "pc <- IDLE; RESULT <- ERR(kind, info); if the walk was started by BUILD: BSTATE <-
Failed(InitializationFailed)", and nothing else of the block (R256). The controller is left as U1 and U7 say. -/
def State.raiseError (s : State) (e : Error) : State :=
  { s with
    seq := .idle
    result := .err e
    bstate := if s.seq.isBuildWalk then .failed .initializationFailed else s.bstate
    ctl := s.ctl.afterFailure s.seq }

/-- `complete(ctx, OK)` of the initialise walk (R195, R234). -/
def State.completeInit (s : State) (ctx : Ctx) : State :=
  { s with
    seq := .idle
    result := .ok
    bstate := match ctx with
      | .build => .built
      | .host => s.bstate }

/-- FLUSH ends: `pc <- IDLE; RESULT <- OK` (R212); only this makes the controller's contents known again after a CANCEL or a
failure (R68, R218). -/
def State.completeFlush (s : State) : State := { s with seq := .idle, result := .ok, ctl := s.ctl.settle }

/-- DROP's effect: every piece of state to its reset value, the straps, the parameters and `WIRE` kept (R291, R34, C16). What
lies outside the block (the controller, the transport's answers, the observer's record, the host's further calls) stays, but
that an operation in flight leaves the controller unknown. -/
def State.dropReset (s : State) : State :=
  { State.reset with
    cfg := s.cfg
    params := s.params
    wire := s.wire
    wireBase := s.wire.length
    ctl := s.ctl.afterCancel s.seq
    observed := s.observed
    answers := s.answers
    draws := s.draws
    port := s.port }

end Sys2Proof.Machine
end

