-- ==== Sys2Proof/Machine/Commands.lean ====
section
/-! DEFINITION. The catalog commands (41_command_catalog) and the control bytes (30_encoding R82, R83). A catalog entry "reads no
state of the block, writes no state, sets no flag, raises no error, and is total on its operand type" (R130): it returns its
bytes to its caller. Log entry 5. -/

namespace Sys2Proof.Machine

/-- The outcome of every meaning: a next state, a fault or a refusal. -/
abbrev Out := Host.Outcome State Fault Refusal

/-- DISPLAY_OFF, R131. -/
def execDisplayOff (s : State) : Out := .next (s.returnBytes Catalog.displayOff)

/-- DISPLAY_ON, R132. -/
def execDisplayOn (s : State) : Out := .next (s.returnBytes Catalog.displayOn)

/-- CONTRAST(level), R133. -/
def execContrast (level : Byte) (s : State) : Out := .next (s.returnBytes (Catalog.contrast level))

/-- MULTIPLEX_RATIO(ratio), R134. -/
def execMultiplexRatio (ratio : Byte) (s : State) : Out := .next (s.returnBytes (Catalog.multiplexRatio ratio))

/-- DISPLAY_OFFSET(offset), R135. -/
def execDisplayOffset (offset : Byte) (s : State) : Out := .next (s.returnBytes (Catalog.displayOffset offset))

/-- START_LINE(line), R136. -/
def execStartLine (line : Byte) (s : State) : Out := .next (s.returnBytes (Catalog.startLine line))

/-- START_LINE_SHORT(line), R137: for `line >= 64` "the spec gives those operands no meaning and a model must refuse them" (U13). -/
def execStartLineShort (line : Byte) (s : State) : Out :=
  if line.toNat < 64 then .next (s.returnBytes (Catalog.startLineShort line)) else .refused (.startLineShortDomain line)

/-- CLOCK_DIVIDE(freq, ratio), R138. -/
def execClockDivide (freq : Byte) (ratio : Byte) (s : State) : Out := .next (s.returnBytes (Catalog.clockDivide freq ratio))

/-- CHARGE_PUMP_ON, R140. -/
def execChargePumpOn (s : State) : Out := .next (s.returnBytes Catalog.chargePumpOn)

/-- CHARGE_PUMP_OFF, R141. -/
def execChargePumpOff (s : State) : Out := .next (s.returnBytes Catalog.chargePumpOff)

/-- PRECHARGE(period), R142. -/
def execPrecharge (period : Byte) (s : State) : Out := .next (s.returnBytes (Catalog.precharge period))

/-- VCOM_DESELECT(level), R143. -/
def execVcomDeselect (level : Byte) (s : State) : Out := .next (s.returnBytes (Catalog.vcomDeselect level))

/-- SEGMENT_REMAP_NORMAL, R144. -/
def execSegmentRemapNormal (s : State) : Out := .next (s.returnBytes Catalog.segmentRemapNormal)

/-- SEGMENT_REMAP_REMAPPED, R145. -/
def execSegmentRemapRemapped (s : State) : Out := .next (s.returnBytes Catalog.segmentRemapRemapped)

/-- COM_SCAN_NORMAL, R146. -/
def execComScanNormal (s : State) : Out := .next (s.returnBytes Catalog.comScanNormal)

/-- COM_SCAN_REMAPPED, R147. -/
def execComScanRemapped (s : State) : Out := .next (s.returnBytes Catalog.comScanRemapped)

/-- ENTIRE_DISPLAY_RESUME, R148. -/
def execEntireDisplayResume (s : State) : Out := .next (s.returnBytes Catalog.entireDisplayResume)

/-- ENTIRE_DISPLAY_FORCE, R149. -/
def execEntireDisplayForce (s : State) : Out := .next (s.returnBytes Catalog.entireDisplayForce)

/-- DISPLAY_NORMAL, R150. -/
def execDisplayNormal (s : State) : Out := .next (s.returnBytes Catalog.displayNormal)

/-- DISPLAY_INVERTED, R151. -/
def execDisplayInverted (s : State) : Out := .next (s.returnBytes Catalog.displayInverted)

/-- PAGE_ADDRESS(page), R152. -/
def execPageAddress (page : Byte) (s : State) : Out := .next (s.returnBytes (Catalog.pageAddress page))

/-- COLUMN_LOW(col), R153. -/
def execColumnLow (col : Byte) (s : State) : Out := .next (s.returnBytes (Catalog.columnLow col))

/-- COLUMN_HIGH(col), R154. -/
def execColumnHigh (col : Byte) (s : State) : Out := .next (s.returnBytes (Catalog.columnHigh col))

/-- COM_PINS(config), R155. -/
def execComPins (config : Byte) (s : State) : Out := .next (s.returnBytes (Catalog.comPins config))

/-- CTRL_COMMAND_00: byte 0 of a command frame when `CTRL_CMD = 0x00`, R82. -/
def execCtrlCommand00 (s : State) : Out := .next (s.returnBytes [CtrlCmd.c00.byte])

/-- CTRL_COMMAND_80: byte 0 of a command frame when `CTRL_CMD = 0x80`, R82. -/
def execCtrlCommand80 (s : State) : Out := .next (s.returnBytes [CtrlCmd.c80.byte])

/-- CTRL_DATA: byte 0 of every data frame, R83. -/
def execCtrlData (s : State) : Out := .next (s.returnBytes [Sys2Proof.ctrlData])

end Sys2Proof.Machine
end

