-- ==== Sys2Proof/Machine/Operands.lean ====
section
/-! DEFINITION. Operands: the pixel mapping (20_memory R55, R63; 40_framebuffer_ops R111, R118), the initialise table's
commands with the configuration registers as operands (43_initialize R191), and the pseudo-operations of 30_encoding R91. -/

namespace Sys2Proof.Machine

/-- A coordinate lies in `0 .. 127`: signed, and "before any arithmetic on them" (R112). -/
def coordInRange (c : Coord) : Bool := 0 ≤ c.toInt && c.toInt < 128

/-- "A pixel is in range exactly when `0 <= x <= 127` and `0 <= y <= 127`" (R112). -/
def pixelInRange (x y : Coord) : Bool := coordInRange x && coordInRange y

/-- "byte index `x + (y / 8) * width`" (R63), of an in-range pixel. -/
def pixelIndex (x y : Coord) : Nat := x.toInt.toNat + y.toInt.toNat / 8 * 128

/-- "bit index `y % 8`" (R63), of an in-range pixel. -/
def pixelBit (y : Coord) : Nat := y.toInt.toNat % 8

/-- "Pixel On sets the bit; Off clears it" (R111). -/
def putBit (old : Byte) (b : Nat) (on : Bool) : Byte :=
  if on then old ||| ((1 : Byte) <<< b) else old &&& ~~~((1 : Byte) <<< b)

/-- `PIXEL(x, y)` "for in-range `(x, y)`, undefined otherwise" (R116): no value there. -/
def pixel (fb : List Host.Cell) (x y : Coord) : Option Bool :=
  if pixelInRange x y then some ((readByte fb (pixelIndex x y)).getLsbD (pixelBit y)) else none

/-- The first command of ORIENTATION: by `CFG_SEG_REMAP` (R91, R191). -/
def segmentRemap (cfg : Straps) : Instr :=
  if cfg.segRemap = 0 then .segmentRemapNormal else .segmentRemapRemapped

/-- The second command of ORIENTATION: by `CFG_COM_REMAP` (R91, R191). -/
def comScan (cfg : Straps) : Instr :=
  if cfg.comRemap = 0 then .comScanNormal else .comScanRemapped

/-- The command column of the frame table: the command sent as frame `k` (R191). -/
def initInstr (cfg : Straps) (k : Fin 15) : Instr :=
  match k.val with
  | 0 => .displayOff
  | 1 => .clockDivide (cfg.clkFreq.setWidth 8) (cfg.clkRatio.setWidth 8)
  | 2 => .multiplexRatio 0x7F
  | 3 => .displayOffset cfg.offset
  | 4 => .startLine 0
  | 5 => .chargePumpOn
  | 6 => segmentRemap cfg
  | 7 => comScan cfg
  | 8 => .comPins cfg.comPins
  | 9 => .contrast cfg.contrast
  | 10 => .precharge cfg.precharge
  | 11 => .vcomDeselect cfg.vcom
  | 12 => .entireDisplayResume
  | 13 => .displayNormal
  | _ => .displayOn

/-- `INIT_CMD(k)` (R191). -/
def initCmd (cfg : Straps) (k : Fin 15) : List Byte := commandBytes (initInstr cfg k)

/-- The pseudo-operations: "names for fixed groups of commands, each sent as separate frames" (R91). -/
inductive Pseudo where
  | columnAddress (col : Byte)
  | select (page : Byte)
  | orientation
  | ramDisplay
  | chargePump (enable : Bool)
  deriving DecidableEq, Repr

/-- "expands to, in order" (R91). -/
def expandPseudo (cfg : Straps) : Pseudo → List Instr
  | .columnAddress col => [.columnLow col, .columnHigh col]
  | .select page => [.pageAddress page, .columnLow 0, .columnHigh 0]
  | .orientation => [segmentRemap cfg, comScan cfg]
  | .ramDisplay => [.entireDisplayResume, .displayNormal]
  | .chargePump enable => if enable then [.chargePumpOn] else [.chargePumpOff]

end Sys2Proof.Machine
end

