-- ==== Sys2Proof/Machine/Framebuffer.lean ====
section
/-! DEFINITION. The framebuffer operations SET_PIXEL, CLEAR and AS_BYTES (40_framebuffer_ops). "None of them can fail, none touches
the wire", each admitted only when `BSTATE = Built` and `BUSY = 0` (R110). -/

namespace Sys2Proof.Machine

/-- SET_PIXEL(x, y, on), R111: out of range "no state changes at all" (R112), in range one bit of one byte (R113). -/
def execSetPixel (x y : Coord) (on : Bool) (s : State) : Out :=
  if s.sessionIdle then
    if pixelInRange x y then
      match memWrite s.fb (pixelIndex x y) [putBit (readByte s.fb (pixelIndex x y)) (pixelBit y) on] with
      | some fb => .next (s.setFb fb)
      | none => .fault (.fbOutOfRange (pixelIndex x y) 1)
    else .next s
  else .refused (.notAdmitted (.setPixel x y on))

/-- CLEAR(on), R114. -/
def execClear (on : Bool) (s : State) : Out :=
  if s.sessionIdle then .next (s.setFb (filled (if on then 0xFF else 0x00)))
  else .refused (.notAdmitted (.clear on))

/-- AS_BYTES, R115: returns `MemRead(0, 2048)` and "changes no state". -/
def execAsBytes (s : State) : Out :=
  if s.sessionIdle then
    match memRead s.fb 0 2048 with
    | some bytes => .next (s.returnBytes bytes)
    | none => .fault (.fbOutOfRange 0 2048)
  else .refused (.notAdmitted .asBytes)

end Sys2Proof.Machine
end

