-- ==== Sys2Proof/Machine/Framer.lean ====
section
/-! DEFINITION. The framer procedures SEND_COMMAND and SEND_DATA (42_transport_framer), called on their own. Their `session`
argument "is the block's own state" (R170), and a session is there for a caller while `BSTATE = Built` and no operation runs:
log entry 4. INITIALIZE, BUILD and FLUSH send their frames through the same `emit`, one sequencer step each. -/

namespace Sys2Proof.Machine

/-- The loop of `SPLIT(ctrl, data)` (R174), `fuel` bounding its rounds: greedy chunks of `TMAX - 1` bytes (D7), ending with the
first frame that fails (R175). -/
def splitFrom (ctrl : Byte) : Nat → List Byte → State → State × FrameEnd
  | 0, _, s => (s, .ok)
  | _ + 1, [], s => (s, .ok)
  | fuel + 1, b :: rest, s =>
    match emit ctrl ((b :: rest).take (s.params.tmax - 1)) s with
    | (t, .ok) => splitFrom ctrl fuel ((b :: rest).drop (s.params.tmax - 1)) t
    | (t, .err c) => (t, .err c)

/-- `SPLIT(ctrl, data)` (R174): at most one round for each byte. -/
def split (ctrl : Byte) (data : List Byte) (s : State) : State × FrameEnd :=
  splitFrom ctrl data.length data s

/-- A framer procedure ends: its end goes to its caller (R170), and after a failure nothing of the controller counts as
known until a FLUSH ends `OK` (R175, R68, U7). -/
def finishFramer : State × FrameEnd → State
  | (s, .ok) => { s with ret := .framer .ok }
  | (s, .err c) => { s with ret := .framer (.err c), ctl := s.ctl.fail 0 }

/-- SEND_COMMAND(cmd), R172: one frame. Bytes that fit are sent as they are, whether or not they are one catalog command, to which
R172 limits its operand (DESIGN CHOICE, unsafe: log entry 30). No bytes "is given no meaning ... a model must refuse the call" (R179); the chunking
path "a model should mark as refused" (R180). -/
def execSendCommand (cmd : List Byte) (s : State) : Out :=
  if s.sessionIdle then
    if cmd.length = 0 then .refused .emptyCommand
    else if 1 + cmd.length ≤ s.params.tmax then .next (finishFramer (emit s.params.ctrlCmd.byte cmd s))
    else .refused (.commandTooLong cmd.length)
  else .refused (.notAdmitted (.sendCommand cmd))

/-- SEND_DATA(data), R173: `SPLIT(0x40, data)`; no bytes send no frame and end `Ok` (R179). -/
def execSendData (data : List Byte) (s : State) : Out :=
  if s.sessionIdle then .next (finishFramer (split Sys2Proof.ctrlData data s))
  else .refused (.notAdmitted (.sendData data))

end Sys2Proof.Machine
end

