-- ==== Sys2Proof/Machine/Session.lean ====
section
/-! DEFINITION. The host operations that drive the block: CONNECT and BUILD (45_builder), the acceptance of INITIALIZE
(43_initialize) and FLUSH (44_flush), CANCEL (60_exceptions) and DROP (70_reset_and_hazards). What an accepted walk sends is in
Machine/Sequencer.lean. -/

namespace Sys2Proof.Machine

/-- CONNECT(addr), R231. -/
def execConnect (addr : Byte) (s : State) : Out :=
  if s.builderIdle then .next { s with busPresent := true, addr := addr, bstate := .configured }
  else .refused (.notAdmitted (.connect addr))

/-- BUILD, R232 and R233: NoBusConnected at once, "raised before the framebuffer is zeroed or any frame staged" (R258); else the
session is constructed and the walk of INITIALIZE starts. -/
def execBuild (s : State) : Out :=
  if s.builderIdle then
    if s.busPresent then .next ((s.setFb (filled 0x00)).accept (.init .build 0))
    else .next { s.raiseError .noBusConnected with bstate := .failed .noBusConnected }
  else .refused (.notAdmitted .build)

/-- INITIALIZE, R190 and R193: "When INITIALIZE is accepted: `RESULT <- NONE`, `SEQ <- INIT(HOST, 0)`". -/
def execInitializeOp (s : State) : Out :=
  if s.sessionIdle then .next (s.accept (.init .host 0)) else .refused (.notAdmitted .initializeOp)

/-- FLUSH, R210 and R212: "When FLUSH is accepted: `RESULT <- NONE`, `SEQ <- FLUSH(0, PAGE, 0)`". -/
def execFlush (s : State) : Out :=
  if s.sessionIdle then .next (s.accept (.flush 0 .page)) else .refused (.notAdmitted .flush)

/-- CANCEL, R262: during a BUILD walk as DROP; else the operation ends and the session stays. -/
def execCancel (s : State) : Out :=
  if s.cancellable then
    if s.seq.isBuildWalk then .next { s.dropReset with result := .cancelled }
    else .next { s with seq := .idle, result := .cancelled, ctl := s.ctl.afterCancel s.seq }
  else .refused (.notAdmitted .cancel)

/-- DROP, R291: "Admission: always, in every state, busy or idle." -/
def execDrop (s : State) : Out := .next s.dropReset

end Sys2Proof.Machine
end

