-- ==== Sys2Proof/Machine/Dispatch.lean ====
section
/-! DEFINITION. The dispatch: one arm per row of the opcode table, each one direct call of its meaning. -/

namespace Sys2Proof.Machine

def exec (i : Instr) (s : State) : Host.Outcome State Fault Refusal :=
  match i with
  | .displayOff => Sys2Proof.Machine.execDisplayOff s
  | .displayOn => Sys2Proof.Machine.execDisplayOn s
  | .contrast level => Sys2Proof.Machine.execContrast level s
  | .multiplexRatio ratio => Sys2Proof.Machine.execMultiplexRatio ratio s
  | .displayOffset offset => Sys2Proof.Machine.execDisplayOffset offset s
  | .startLine line => Sys2Proof.Machine.execStartLine line s
  | .startLineShort line => Sys2Proof.Machine.execStartLineShort line s
  | .clockDivide freq ratio => Sys2Proof.Machine.execClockDivide freq ratio s
  | .chargePumpOn => Sys2Proof.Machine.execChargePumpOn s
  | .chargePumpOff => Sys2Proof.Machine.execChargePumpOff s
  | .precharge period => Sys2Proof.Machine.execPrecharge period s
  | .vcomDeselect level => Sys2Proof.Machine.execVcomDeselect level s
  | .segmentRemapNormal => Sys2Proof.Machine.execSegmentRemapNormal s
  | .segmentRemapRemapped => Sys2Proof.Machine.execSegmentRemapRemapped s
  | .comScanNormal => Sys2Proof.Machine.execComScanNormal s
  | .comScanRemapped => Sys2Proof.Machine.execComScanRemapped s
  | .entireDisplayResume => Sys2Proof.Machine.execEntireDisplayResume s
  | .entireDisplayForce => Sys2Proof.Machine.execEntireDisplayForce s
  | .displayNormal => Sys2Proof.Machine.execDisplayNormal s
  | .displayInverted => Sys2Proof.Machine.execDisplayInverted s
  | .pageAddress page => Sys2Proof.Machine.execPageAddress page s
  | .columnLow col => Sys2Proof.Machine.execColumnLow col s
  | .columnHigh col => Sys2Proof.Machine.execColumnHigh col s
  | .comPins config => Sys2Proof.Machine.execComPins config s
  | .ctrlCommand00 => Sys2Proof.Machine.execCtrlCommand00 s
  | .ctrlCommand80 => Sys2Proof.Machine.execCtrlCommand80 s
  | .ctrlData => Sys2Proof.Machine.execCtrlData s
  | .connect addr => Sys2Proof.Machine.execConnect addr s
  | .build => Sys2Proof.Machine.execBuild s
  | .initializeOp => Sys2Proof.Machine.execInitializeOp s
  | .flush => Sys2Proof.Machine.execFlush s
  | .setPixel x y on => Sys2Proof.Machine.execSetPixel x y on s
  | .clear on => Sys2Proof.Machine.execClear on s
  | .asBytes => Sys2Proof.Machine.execAsBytes s
  | .cancel => Sys2Proof.Machine.execCancel s
  | .drop => Sys2Proof.Machine.execDrop s
  | .sendCommand cmd => Sys2Proof.Machine.execSendCommand cmd s
  | .sendData data => Sys2Proof.Machine.execSendData data s

end Sys2Proof.Machine
end

