-- ==== Sys2Proof/Machine/Port.lean ====
section
/-! DEFINITION. Which agent moves next (00_scope R14), read from the state: the host presents the next call of the port when the
block is idle, or when the call's time has come; else the sequencer steps; else nobody moves; and what a presented request does. Log entries 1, 2 and 17. -/

namespace Sys2Proof.Machine

/-- The next move. -/
inductive Move where
  /-- The host presents a request; `port` are the calls after it. -/
  | call (request : Request) (port : List Call)
  /-- The sequencer makes its step; `port` are the calls still to come. -/
  | sequencer (port : List Call)
  /-- No agent has an enabled move. -/
  | wait
  deriving DecidableEq, Repr

/-- The next move in a state. -/
def nextMove (s : State) : Move :=
  match s.port with
  | [] => if s.busy then .sequencer [] else .wait
  | c :: rest =>
    if s.busy then
      match c.timing with
      | .whenIdle => .sequencer (c :: rest)
      | .after 0 => .call c.request rest
      | .after (n + 1) => .sequencer ({ c with timing := .after n } :: rest)
    else .call c.request rest

/-- The state with another port. -/
def State.setPort (s : State) (port : List Call) : State := { s with port := port }

/-- The request of an opcode-table word presented before everything else: what `withFetchWord` places. -/
def State.present (s : State) (request : Request) : State :=
  s.setPort ({ timing := .after 0, request := request } :: s.port)

/-- The meaning of a request: the instruction it decodes to, or a refusal by name (30_encoding R100, U17). -/
def runRequest (request : Request) (s : State) : Host.Outcome State Fault Refusal :=
  match decode request with
  | .instr i => exec i s
  | .reject e => .refused (.undecodable e)

end Sys2Proof.Machine
end

