-- ==== Sys2Proof/Machine/Sequencer.lean ====
section
/-! DEFINITION. The sequencer's steps: the initialise walk (43_initialize R193) and the page walk of FLUSH (44_flush R212), one
frame a step. -/

namespace Sys2Proof.Machine

/-- The end of a step at `INIT(ctx, k)` (R193). -/
def afterInit (ctx : Ctx) (k : Fin 15) : State × FrameEnd → State
  | (s, .ok) => if h : k.val + 1 < 15 then { s with seq := .init ctx ⟨k.val + 1, h⟩ } else s.completeInit ctx
  | (s, .err c) => s.raiseError (.initializationFailed c)

/-- The frame of a step at `FLUSH(p, ph, o)` (R212): its control byte and payload, the DATA payload read from `FB` "now, at this
step"; none where MemRead refuses. -/
def flushFrame (s : State) (p : Fin 16) : Phase → Option (Byte × List Byte)
  | .page => some (s.params.ctrlCmd.byte, Catalog.pageAddress (BitVec.ofNat 8 p.val))
  | .colLo => some (s.params.ctrlCmd.byte, Catalog.columnLow 0)
  | .colHi => some (s.params.ctrlCmd.byte, Catalog.columnHigh 0)
  | .data o =>
    (memRead s.fb (128 * p.val + o.val) (min (s.params.tmax - 1) (128 - o.val))).map fun bytes => (ctrlData, bytes)

/-- The position after page `p`: the next page, or the end of FLUSH (R212). -/
def afterPage (p : Fin 16) (s : State) : State :=
  if h : p.val + 1 < 16 then { s with seq := .flush ⟨p.val + 1, h⟩ .page } else s.completeFlush

/-- The end of a step at `FLUSH(p, ph, o)` whose payload had `n` bytes (R212). -/
def afterFlush (p : Fin 16) (ph : Phase) (n : Nat) : State × FrameEnd → State
  | (s, .ok) =>
    match ph with
    | .page => { s with seq := .flush p .colLo }
    | .colLo => { s with seq := .flush p .colHi }
    | .colHi => { s with seq := .flush p (.data 0) }
    | .data o => if h : o.val + n < 128 then { s with seq := .flush p (.data ⟨o.val + n, h⟩) } else afterPage p s
  | (s, .err c) => s.raiseError c.toError

/-- The one enabled step of the sequencer (R193, R212); an idle sequencer "has no step" (R24) and stays. -/
def seqStep (s : State) : Out :=
  match s.seq with
  | .idle => .next s
  | .init ctx k => .next (afterInit ctx k (emit s.params.ctrlCmd.byte (initCmd s.cfg k) s))
  | .flush p ph =>
    match flushFrame s p ph with
    | some (ctrl, payload) => .next (afterFlush p ph payload.length (emit ctrl payload s))
    | none => .fault (.fbOutOfRange (128 * p.val) 128)

end Sys2Proof.Machine
end

