-- ==== Sys2Proof/Machine/Step.lean ====
section
/-! DEFINITION. One step of the machine: the move that the state calls for (00_scope R14). -/

namespace Sys2Proof.Machine

/-- One step. -/
def step (s : State) : Host.Outcome State Fault Refusal :=
  match nextMove s with
  | .call request port => runRequest request (s.setPort port)
  | .sequencer port => seqStep (s.setPort port)
  | .wait => .next s

/-- `s` with the instruction of an opcode-table word presented as the next call. -/
def State.withFetchWord (s : State) (nbits w : Nat) : State :=
  s.present (tableRequest nbits w)

end Sys2Proof.Machine
end

