-- ==== Sys2Proof/Safety.lean ====
section
/-! DEFINITION. What holds in every reachable state (10_state R25, R35; 20_memory R51), and what a safe step is. -/

namespace Sys2Proof.Machine

/-- `BSTATE` against `BUS_PRESENT` (R25): "`BSTATE = Unconfigured` exactly when `BUS_PRESENT = 0` holds in the two states before
BUILD; in `Built` and `Failed(InitializationFailed)` `BUS_PRESENT = 1`; in `Failed(NoBusConnected)` `BUS_PRESENT = 0`". -/
def State.busMatchesBState (s : State) : Bool :=
  match s.bstate with
  | .unconfigured => !s.busPresent
  | .configured => s.busPresent
  | .built => s.busPresent
  | .failed .noBusConnected => !s.busPresent
  | .failed .initializationFailed => s.busPresent

/-- `SEQ` against `BSTATE` (R35 b). -/
def State.seqMatchesBState (s : State) : Bool :=
  match s.seq with
  | .idle => true
  | .init .build _ => s.bstate == .configured
  | .init .host _ => s.bstate == .built
  | .flush _ _ => s.bstate == .built

/-- "`SEQ != IDLE` implies `RESULT = NONE`" (R35 c). -/
def State.busyHasNoResult (s : State) : Bool := !s.busy || s.result == .none

/-- "`1 <= len(bytes) <= min(TMAX, STAGE_CAP)`" for an entry of `WIRE` (R35 d). -/
def entryFits (p : Params) (e : WireEntry) : Bool :=
  1 ≤ e.bytes.length && e.bytes.length ≤ min p.tmax p.stageCap

/-- The staging buffer holds at most `STAGE_CAP` bytes, its first `STAGE_LEN` among those written (R28). -/
def State.stageWf (s : State) : Bool :=
  s.stageLen ≤ s.stage.length && s.stage.length ≤ s.params.stageCap

/-- The invariant of the machine. -/
structure State.Inv (s : State) : Prop where
  /-- The parameters are legal (R7). -/
  legal : s.params.legal
  /-- The framebuffer's canonical form, inside its index space (R31, R51). -/
  fb : Memory.wf s.fb = true
  /-- R25. -/
  bus : s.busMatchesBState = true
  /-- R35 b. -/
  seq : s.seqMatchesBState = true
  /-- R35 c. -/
  result : s.busyHasNoResult = true
  /-- R28. -/
  stage : s.stageWf = true
  /-- R35 d. -/
  wire : ∀ e ∈ s.wire, entryFits s.params e = true
  /-- The mark of the last reset lies within `WIRE` (R29). -/
  base : s.wireBase ≤ s.wire.length
  /-- The determined cells of the controller's RAM are in rising order, inside its 2048 cells. -/
  ram : Cells.rising 0 s.ctl.ram = true

/-- "`WIRE` since reset": "the entries appended after the most recent reset event" (R29). -/
def State.wireSinceReset (s : State) : List WireEntry := s.wire.drop s.wireBase

/-- The entry of `WIRE` for a frame answered `Ok`. -/
def okEntry (addr : Byte) (frame : List Byte) : WireEntry := { addr := addr, bytes := frame, answer := .ok }

/-- Frame `k` of an initialise walk, answered `Ok` (R191, R199 b). -/
def initEntry (s : State) (k : Fin 15) : WireEntry := okEntry s.addr (s.params.ctrlCmd.byte :: initCmd s.cfg k)

/-- The first `n` frames of an initialise walk, answered `Ok` (R199). -/
def initEntries (s : State) (n : Nat) : List WireEntry := ((List.finRange 15).take n).map (initEntry s)

/-- The number of data frames of a page: `ceil(128 / c)` for chunks of `c` bytes (R177, R178). -/
def framesPerPage (c : Nat) : Nat := (128 + c - 1) / c

/-- The bytes `FB[a .. a + n)` (R10). -/
def fbBytes (fb : List Host.Cell) (a n : Nat) : List Byte := (List.range n).map fun k => readByte fb (a + k)

/-- The frames a whole FLUSH sends for page `p` (R214): three select frames, then the page's bytes in chunks of
`c = TMAX - 1` at offsets `0, c, 2c, ...`. -/
def pageFrames (s : State) (p : Nat) : List (List Byte) :=
  [[s.params.ctrlCmd.byte, 0xB0 + BitVec.ofNat 8 p], [s.params.ctrlCmd.byte, 0x00], [s.params.ctrlCmd.byte, 0x10]]
    ++ (List.range (framesPerPage (s.params.tmax - 1))).map fun j =>
      ctrlData :: fbBytes s.fb (128 * p + j * (s.params.tmax - 1)) (min (s.params.tmax - 1) (128 - j * (s.params.tmax - 1)))

/-- The entries that a FLUSH ending `OK` appends to `WIRE` (R214). -/
def flushEntries (s : State) : List WireEntry := ((List.range 16).flatMap (pageFrames s)).map (okEntry s.addr)

/-- The controller's RAM mirrors the framebuffer at index `i` (R30, R219 g): the byte is determined and equal. Whether it counts
as known is `Controller.known`. -/
def mirrored (s : State) (i : Nat) : Prop := Cells.lookup s.ctl.ram i = some (readByte s.fb i)

/-- What a running FLUSH has mirrored so far, and where it left the controller's pointers (R30, R214): the bytes of the frames
answered `Ok`. -/
def State.FlushMirrors (s : State) : Prop :=
  match s.seq with
  | .idle => True
  | .init _ _ => True
  | .flush p .page => ∀ i < 128 * p.val, mirrored s i
  | .flush p .colLo => (∀ i < 128 * p.val, mirrored s i) ∧ s.ctl.page = some (BitVec.ofNat 4 p.val)
  | .flush p .colHi =>
    (∀ i < 128 * p.val, mirrored s i) ∧ s.ctl.page = some (BitVec.ofNat 4 p.val) ∧ s.ctl.colLo = some 0
  | .flush p (.data o) =>
    (∀ i < 128 * p.val + o.val, mirrored s i) ∧ s.ctl.page = some (BitVec.ofNat 4 p.val)
      ∧ s.ctl.colLo = some (BitVec.ofNat 4 o.val) ∧ s.ctl.colHi = some (BitVec.ofNat 4 (o.val / 16))

/-- "`WIRE` since reset" against the builder's state (R240 b, R296): nothing before a walk, exactly the frames sent so far
during BUILD's walk, over a zeroed framebuffer (R240 d), and in `Built` a record that begins with the 15 initialise frames. -/
def State.BootTrace (s : State) : Prop :=
  match s.bstate with
  | .unconfigured => s.wireSinceReset = []
  | .configured =>
    match s.seq with
    | .init .build k => s.wireSinceReset = initEntries s k.val ∧ s.fb = []
    | _ => s.wireSinceReset = []
  | .built => initEntries s 15 <+: s.wireSinceReset
  | .failed .noBusConnected => s.wireSinceReset = []
  | .failed .initializationFailed => True

/-- An instruction returns bytes to its caller and changes nothing else, in every state (R130). -/
def Returns (i : Instr) (b : List Byte) : Prop := ∀ s : State, exec i s = .next { s with ret := .bytes b }

/-- `n` steps, ending early with a fault or a refusal. -/
def runSteps : Nat → State → Host.Outcome State Fault Refusal
  | 0, s => .next s
  | n + 1, s =>
    match step s with
    | .next t => runSteps n t
    | .fault f => .fault f
    | .refused r => .refused r

/-- A safe step does not fault. -/
def SafeStep (s : State) : Prop := ∀ f, step s ≠ .fault f

end Sys2Proof.Machine
end

