-- ==== Sys2Proof/Certificates/Slice0/Obligations.lean ====
section
/-! DEFINITION. The statements for the provers, from the spec's numbered rules. OBLIGATIONS.json lists them. -/

open Sys2Proof Sys2Proof.Machine

/-! Encoding (30_encoding). -/

/-- R85, R86, R87, R100, R156: decoding what an instruction encodes to gives the instruction back, with the operands the masks
keep; all of them, for every well-formed instruction but the two column commands. Rests on log entries 1, 10, 27 and 28. -/
def Obligations.DecodeOfEncodeIsCanonical : Prop :=
  ∀ i : Instr, i.wf = true →
    decode (encode i) = .instr i.canon
      ∧ ((∀ c, i ≠ .columnLow c) → (∀ c, i ≠ .columnHigh c) → i.canon = i)

/-- R87, R89: bytes that decode to a command are that command's bytes: no bit of a command's bytes is dropped.
Rests on log entries 10 and 28. -/
def Obligations.CommandBytesOfDecodedCommand : Prop :=
  ∀ (bytes : List Byte) (i : Instr), decode (.command bytes) = .instr i → encode i = .command bytes

/-- R156: two catalog entries with operands in their domains return the same bytes only if they are the same entry with the same
operand, as far as the bytes determine it; the two column commands together determine the column. -/
def Obligations.CatalogEntriesAreDistinct : Prop :=
  (∀ i j : Instr, i.wf = true → j.wf = true → commandBytes i ≠ [] → commandBytes i = commandBytes j → i.canon = j.canon)
    ∧ ∀ c d : Byte, commandBytes (.columnLow c) = commandBytes (.columnLow d) →
        commandBytes (.columnHigh c) = commandBytes (.columnHigh d) → c = d

/-- R87, R88 b: the first byte of every well-formed catalog command is one that the opcode map lists, and a command whose first
byte the map does not list is rejected (the opcode of COM_PINS being `Config.opComPins`, log entry 10). -/
def Obligations.FirstBytesAreTheOpcodeMap : Prop :=
  let listed : Byte → Prop := fun b =>
    b.toNat < 0x20 ∨ (0x40 ≤ b.toNat ∧ b.toNat < 0x80) ∨ (0xB0 ≤ b.toNat ∧ b.toNat < 0xC0)
      ∨ b ∈ [0x81, 0xA0, 0xA1, 0xA4, 0xA5, 0xA6, 0xA7, 0xA8, 0xAD, 0xAE, 0xAF, 0xC0, 0xC8, 0xD3, 0xD5, 0xD9, 0xDB, 0xDC,
            Config.opComPins]
  (∀ (i : Instr) (b : Byte) (rest : List Byte), i.wf = true → commandBytes i = b :: rest → listed b)
    ∧ ∀ (b : Byte) (rest : List Byte), ¬ listed b → ∀ i, decode (.command (b :: rest)) ≠ .instr i

/-- R131, R133, R136, R138, R140, R147, R152, R153, R155, R82, R231, R111: a few words written out from the encodings decode to the
instructions they stand for. The operand 112 that `[0x17]` decodes to is the model's choice among the columns with those bytes
(log entry 28), and the word of COM_PINS rests on log entry 10. -/
def Obligations.SampleWordsDecode : Prop :=
  decode (.command [0xAE]) = .instr .displayOff ∧ decode (.command [0x81, 0x2F]) = .instr (.contrast 0x2F)
    ∧ decode (.command [0xDC, 0x7F]) = .instr (.startLine 127) ∧ decode (.command [0xD5, 0x51]) = .instr (.clockDivide 5 1)
    ∧ decode (.command [0xAD, 0x8B]) = .instr .chargePumpOn ∧ decode (.command [0xC8]) = .instr .comScanRemapped
    ∧ decode (.command [0xB5]) = .instr (.pageAddress 5) ∧ decode (.command [0x0F]) = .instr (.columnLow 15)
    ∧ decode (.command [0x17]) = .instr (.columnHigh 112) ∧ decode (.command [0xDA, 0x12]) = .instr (.comPins 0x12)
    ∧ decode (.control 0x80) = .instr .ctrlCommand80 ∧ decode (.host 0 0x3C 0 0 false) = .instr (.connect 0x3C)
    ∧ decode (.host 4 0 5 10 true) = .instr (.setPixel 5 10 true)

/-- R100: the nine selectors name their operations, and "Selector values 9 to 15 name no operation and are refused", in every
state. That the operand lines an operation does not have may hold anything is the model's choice (log entry 27). -/
def Obligations.HostSelectors : Prop :=
  ∀ (addr : Byte) (x y : Coord) (on : Bool),
    decode (.host 0 addr x y on) = .instr (.connect addr) ∧ decode (.host 1 addr x y on) = .instr .build
      ∧ decode (.host 2 addr x y on) = .instr .initializeOp ∧ decode (.host 3 addr x y on) = .instr .flush
      ∧ decode (.host 4 addr x y on) = .instr (.setPixel x y on) ∧ decode (.host 5 addr x y on) = .instr (.clear on)
      ∧ decode (.host 6 addr x y on) = .instr .asBytes ∧ decode (.host 7 addr x y on) = .instr .cancel
      ∧ decode (.host 8 addr x y on) = .instr .drop
      ∧ ∀ (sel : BitVec 4) (s : State), 9 ≤ sel.toNat →
          runRequest (.host sel addr x y on) s = .refused (.undecodable (.reservedSelector sel.toNat))

/-! The step (00_scope R14). -/

/-- R14, and log entries 1 and 2: when the next call of the port is due and its request decodes, the step is the meaning of the
decoded instruction in the state from which the call has been taken. -/
def Obligations.StepRunsTheDecodedCall : Prop :=
  ∀ (s : State) (c : Call) (rest : List Call) (i : Instr),
    s.port = c :: rest → (s.busy = false ∨ c.timing = .after 0) → decode c.request = .instr i →
      step s = exec i { s with port := rest }

/-- R14, R24, R26: with no call due, a busy block makes its sequencer's step, a call still to come counting it; an idle block to
which nothing is presented stays as it is (log entry 17). -/
def Obligations.StepOfTheSequencer : Prop :=
  (∀ s : State, s.port = [] → s.busy = true → step s = seqStep s)
    ∧ (∀ (s : State) (r : Request) (rest : List Call), s.port = ⟨.whenIdle, r⟩ :: rest → s.busy = true → step s = seqStep s)
    ∧ (∀ (s : State) (r : Request) (n : Nat) (rest : List Call), s.port = ⟨.after (n + 1), r⟩ :: rest → s.busy = true →
        step s = seqStep { s with port := ⟨.after n, r⟩ :: rest })
    ∧ ∀ s : State, s.port = [] → s.busy = false → step s = .next s

/-! The Command Catalog (41_command_catalog): the bytes returned, nothing else changed, in every state; and where the initialise
walk sends the command. -/

/-- R131, R132. -/
def Obligations.DisplayPowerCommands : Prop :=
  Returns .displayOff [0xAE] ∧ Returns .displayOn [0xAF]
    ∧ ∀ cfg : Straps, initCmd cfg 0 = [0xAE] ∧ initCmd cfg 14 = [0xAF]

/-- R133. -/
def Obligations.ContrastCommand : Prop :=
  (∀ level : Byte, Returns (.contrast level) [0x81, level]) ∧ ∀ cfg : Straps, initCmd cfg 9 = [0x81, cfg.contrast]

/-- R134, R135, R136. -/
def Obligations.GeometryCommands : Prop :=
  (∀ ratio : Byte, Returns (.multiplexRatio ratio) [0xA8, ratio])
    ∧ (∀ offset : Byte, Returns (.displayOffset offset) [0xD3, offset])
    ∧ (∀ line : Byte, Returns (.startLine line) [0xDC, line &&& 0x7F])
    ∧ ∀ cfg : Straps, initCmd cfg 2 = [0xA8, 0x7F] ∧ initCmd cfg 3 = [0xD3, cfg.offset] ∧ initCmd cfg 4 = [0xDC, 0x00]

/-- R137: below 64 the byte is returned, distinct lines giving distinct bytes from `0x40` to `0x7F`; from 64 on the command is
refused in every state; and no command frame of a walk carries such a byte as its command. -/
def Obligations.StartLineShortCommand : Prop :=
  (∀ line : Byte, line.toNat < 64 → Returns (.startLineShort line) [0x40 ||| line]
      ∧ 0x40 ≤ ((0x40 : Byte) ||| line).toNat ∧ ((0x40 : Byte) ||| line).toNat < 0x80)
    ∧ (∀ a b : Byte, a.toNat < 64 → b.toNat < 64 → (0x40 : Byte) ||| a = 0x40 ||| b → a = b)
    ∧ (∀ (line : Byte) (s : State), 64 ≤ line.toNat → exec (.startLineShort line) s = .refused (.startLineShortDomain line))
    ∧ (∀ (cfg : Straps) (k : Fin 15) (line : Byte), line.toNat < 64 → initCmd cfg k ≠ [0x40 ||| line])
    ∧ ∀ (s : State) (p : Fin 16) (ph : Phase) (payload : List Byte) (line : Byte), line.toNat < 64 →
        flushFrame s p ph = some (s.params.ctrlCmd.byte, payload) → payload ≠ [0x40 ||| line]

/-- R138, R142, R143. -/
def Obligations.TimingCommands : Prop :=
  (∀ freq ratio : Byte, Returns (.clockDivide freq ratio) [0xD5, ((freq &&& 0x0F) <<< 4) ||| (ratio &&& 0x0F)])
    ∧ (∀ period : Byte, Returns (.precharge period) [0xD9, period])
    ∧ (∀ level : Byte, Returns (.vcomDeselect level) [0xDB, level])
    ∧ ∀ cfg : Straps,
        initCmd cfg 1 = ([0xD5, (cfg.clkFreq.setWidth 8 <<< 4) ||| cfg.clkRatio.setWidth 8] : List Byte)
          ∧ initCmd cfg 10 = [0xD9, cfg.precharge] ∧ initCmd cfg 11 = [0xDB, cfg.vcom]

/-- R140, R141; no frame of the initialise walk is CHARGE_PUMP_OFF, which rests on the opcode of COM_PINS, frame 8, not being
`0xAD` (log entry 10, PRESUMED). -/
def Obligations.ChargePumpCommands : Prop :=
  Returns .chargePumpOn [0xAD, 0x8B] ∧ Returns .chargePumpOff [0xAD, 0x8A]
    ∧ ∀ cfg : Straps, initCmd cfg 5 = [0xAD, 0x8B] ∧ ∀ k, initCmd cfg k ≠ [0xAD, 0x8A]

/-- R144, R145, R146, R147. -/
def Obligations.OrientationCommands : Prop :=
  Returns .segmentRemapNormal [0xA0] ∧ Returns .segmentRemapRemapped [0xA1] ∧ Returns .comScanNormal [0xC0]
    ∧ Returns .comScanRemapped [0xC8]
    ∧ ∀ cfg : Straps,
        initCmd cfg 6 = (if cfg.segRemap = 0 then [0xA0] else [0xA1])
          ∧ initCmd cfg 7 = if cfg.comRemap = 0 then [0xC0] else [0xC8]

/-- R148, R149, R150, R151; no frame of the initialise walk is ENTIRE_DISPLAY_FORCE or DISPLAY_INVERTED. -/
def Obligations.DisplayModeCommands : Prop :=
  Returns .entireDisplayResume [0xA4] ∧ Returns .entireDisplayForce [0xA5] ∧ Returns .displayNormal [0xA6]
    ∧ Returns .displayInverted [0xA7]
    ∧ ∀ cfg : Straps,
        initCmd cfg 12 = [0xA4] ∧ initCmd cfg 13 = [0xA6] ∧ ∀ k, initCmd cfg k ≠ [0xA5] ∧ initCmd cfg k ≠ [0xA7]

/-- R152, R153, R154, with the frames of FLUSH that carry them. -/
def Obligations.AddressingCommands : Prop :=
  (∀ page : Byte, Returns (.pageAddress page) [0xB0 ||| (page &&& 0x0F)])
    ∧ (∀ col : Byte, Returns (.columnLow col) [col &&& 0x0F])
    ∧ (∀ col : Byte, Returns (.columnHigh col) [0x10 ||| ((col >>> 4) &&& 0x0F)])
    ∧ ∀ (s : State) (p : Fin 16),
        flushFrame s p .page = some (s.params.ctrlCmd.byte, [0xB0 + BitVec.ofNat 8 p.val])
          ∧ flushFrame s p .colLo = some (s.params.ctrlCmd.byte, [0x00])
          ∧ flushFrame s p .colHi = some (s.params.ctrlCmd.byte, [0x10])

/-- R155, the opcode being the configuration field `OP_COM_PINS` (log entry 10), whatever its value. -/
def Obligations.ComPinsCommand : Prop :=
  (∀ config : Byte, Returns (.comPins config) [Config.opComPins, config])
    ∧ ∀ cfg : Straps, initCmd cfg 8 = [Config.opComPins, cfg.comPins]

/-- R82, R83: the three control bytes. -/
def Obligations.ControlBytes : Prop :=
  Returns .ctrlCommand00 [0x00] ∧ Returns .ctrlCommand80 [0x80] ∧ Returns .ctrlData [0x40]
    ∧ CtrlCmd.c00.byte = 0x00 ∧ CtrlCmd.c80.byte = 0x80 ∧ ctrlData = 0x40

/-! Framebuffer operations (40_framebuffer_ops). -/

/-- R111, R112, R113: in an idle session SET_PIXEL out of range changes nothing at all, and in range it completes and changes
exactly the mapped bit of `FB`. -/
def Obligations.SetPixelWritesOneBit : Prop :=
  ∀ (s : State) (x y : Coord) (on : Bool), s.seq = .idle → s.bstate = .built → Memory.wf s.fb = true →
    (¬ (0 ≤ x.toInt ∧ x.toInt ≤ 127 ∧ 0 ≤ y.toInt ∧ y.toInt ≤ 127) → exec (.setPixel x y on) s = .next s)
      ∧ (0 ≤ x.toInt ∧ x.toInt ≤ 127 ∧ 0 ≤ y.toInt ∧ y.toInt ≤ 127 →
          ∃ fb, exec (.setPixel x y on) s = .next { s with fb := fb }
            ∧ (∀ i, i ≠ x.toInt.toNat + y.toInt.toNat / 8 * 128 → readByte fb i = readByte s.fb i)
            ∧ ∀ b < 8, (readByte fb (x.toInt.toNat + y.toInt.toNat / 8 * 128)).getLsbD b
                = if b = y.toInt.toNat % 8 then on
                  else (readByte s.fb (x.toInt.toNat + y.toInt.toNat / 8 * 128)).getLsbD b)

/-- R63: the pixel mapping is a bijection between the in-range pixels and the bits of `FB`, with the inverse that R63 gives. -/
def Obligations.PixelMappingIsBijective : Prop :=
  (∀ x y : Coord, pixelInRange x y = true →
      pixelIndex x y < 2048 ∧ pixelBit y < 8 ∧ x = BitVec.ofNat 32 (pixelIndex x y % 128)
        ∧ y = BitVec.ofNat 32 (8 * (pixelIndex x y / 128) + pixelBit y))
    ∧ ∀ i < 2048, ∀ b < 8,
        pixelInRange (BitVec.ofNat 32 (i % 128)) (BitVec.ofNat 32 (8 * (i / 128) + b)) = true
          ∧ pixelIndex (BitVec.ofNat 32 (i % 128)) (BitVec.ofNat 32 (8 * (i / 128) + b)) = i
          ∧ pixelBit (BitVec.ofNat 32 (8 * (i / 128) + b)) = b

/-- R119 a, b: in an idle session, after SET_PIXEL at an in-range point PIXEL there is the value set, and PIXEL at every other
in-range point is what it was. -/
def Obligations.PixelAfterSetPixel : Prop :=
  ∀ (s : State) (x y : Coord) (on : Bool), s.seq = .idle → s.bstate = .built → Memory.wf s.fb = true →
    pixelInRange x y = true →
      ∃ t, exec (.setPixel x y on) s = .next t ∧ pixel t.fb x y = some on
        ∧ ∀ x' y' : Coord, pixelInRange x' y' = true → (x', y') ≠ (x, y) → pixel t.fb x' y' = pixel s.fb x' y'

/-- R61, R119 d: SET_PIXEL twice is SET_PIXEL once, and SET_PIXELs at different points commute, out-of-range points included. -/
def Obligations.SetPixelIdempotentAndCommutes : Prop :=
  ∀ (s : State) (x y x' y' : Coord) (on on' : Bool), s.seq = .idle → s.bstate = .built → Memory.wf s.fb = true →
    ∃ t u v, exec (.setPixel x y on) s = .next t ∧ exec (.setPixel x' y' on') s = .next u
      ∧ exec (.setPixel x y on) t = .next t
      ∧ ((x', y') ≠ (x, y) → exec (.setPixel x' y' on') t = .next v ∧ exec (.setPixel x y on) u = .next v)

/-- R114: in an idle session CLEAR completes, every byte of `FB` becomes `0xFF` or `0x00`, every pixel reads as `on`, and
nothing else changes. -/
def Obligations.ClearFillsFramebuffer : Prop :=
  ∀ (s : State) (on : Bool), s.seq = .idle → s.bstate = .built →
    ∃ fb, exec (.clear on) s = .next { s with fb := fb }
      ∧ (∀ i < 2048, readByte fb i = if on then 0xFF else 0x00)
      ∧ ∀ x y : Coord, pixelInRange x y = true → pixel fb x y = some on

/-- R115: in an idle session AS_BYTES completes, returns the 2048 bytes of `FB` in order and changes nothing else. -/
def Obligations.AsBytesReturnsFramebuffer : Prop :=
  ∀ s : State, s.seq = .idle → s.bstate = .built →
    ∃ b, exec .asBytes s = .next { s with ret := .bytes b } ∧ b.length = 2048
      ∧ ∀ i < 2048, b[i]? = some (readByte s.fb i)

/-- R238, and decision D14 as log entry 3 takes it (a refusal that changes no state): each host operation is accepted exactly in
the states its row of the table says, and refused by name in every other. -/
def Obligations.AdmissionTable : Prop :=
  ∀ (s : State) (addr : Byte) (x y : Coord) (on : Bool),
    (∀ i ∈ [Instr.connect addr, .build],
        (s.seq = .idle ∧ (s.bstate = .unconfigured ∨ s.bstate = .configured) → ∃ t, exec i s = .next t)
          ∧ (¬ (s.seq = .idle ∧ (s.bstate = .unconfigured ∨ s.bstate = .configured)) →
              exec i s = .refused (.notAdmitted i)))
      ∧ (∀ i ∈ [Instr.initializeOp, .flush, .setPixel x y on, .clear on, .asBytes],
          (s.seq = .idle ∧ s.bstate = .built → ∃ t, exec i s = .next t)
            ∧ (¬ (s.seq = .idle ∧ s.bstate = .built) → exec i s = .refused (.notAdmitted i)))
      ∧ ((s.seq ≠ .idle ∧ s.params.binding = .nonblocking → ∃ t, exec .cancel s = .next t)
          ∧ (¬ (s.seq ≠ .idle ∧ s.params.binding = .nonblocking) → exec .cancel s = .refused (.notAdmitted .cancel)))
      ∧ ∃ t, exec .drop s = .next t

/-! The Transport Framer (42_transport_framer). -/

/-- R171: `emit` raises PayloadOverflow(n) exactly when the frame's `n` bytes exceed `STAGE_CAP`, and then leaves everything as it
was; else the frame is staged, sent to `ADDR` as one entry of `WIRE` with the transport's answer, the observer told of both if
present, and the end is that answer. The framebuffer, the registers, `SEQ`, `BSTATE` and `RESULT` are unchanged. -/
def Obligations.EmitSendsOneFrame : Prop :=
  ∀ (ctrl : Byte) (payload : List Byte) (s : State),
    (s.params.stageCap < 1 + payload.length → emit ctrl payload s = (s, .err (.payloadOverflow (1 + payload.length))))
      ∧ (1 + payload.length ≤ s.params.stageCap →
          ∃ t, emit ctrl payload s = (t, match s.nextAnswer with
              | .ok => .ok
              | .err e => .err (.transportError e))
            ∧ t.wire = s.wire ++ [{ addr := s.addr, bytes := ctrl :: payload, answer := s.nextAnswer }]
            ∧ t.stage.take t.stageLen = ctrl :: payload ∧ t.stageLen = 1 + payload.length
            ∧ (t.observed = if s.params.observer
                then s.observed ++ [.onCommand (ctrl :: payload), .onTransportResult s.nextAnswer] else s.observed)
            ∧ t.fb = s.fb ∧ t.cfg = s.cfg ∧ t.addr = s.addr ∧ t.busPresent = s.busPresent ∧ t.bstate = s.bstate
            ∧ t.seq = s.seq ∧ t.result = s.result ∧ t.wireBase = s.wireBase ∧ t.params = s.params ∧ t.ret = s.ret
            ∧ t.port = s.port)

/-- R172, R182: SEND_COMMAND of bytes that fit one frame, called in an idle session, completes; that they need not be the one catalog
command to which R172 limits its operand is the model's choice (log entry 30). Exactly one frame is sent, `[CTRL_CMD] ++ cmd`, if it fits the staging buffer, with the
transport's answer as its end; none, and PayloadOverflow as its end, if it does not. `FB`, the registers, `SEQ`, `BSTATE` and `RESULT` are unchanged. -/
def Obligations.SendCommandSendsOneFrame : Prop :=
  ∀ (s : State) (cmd : List Byte), s.seq = .idle → s.bstate = .built → 1 ≤ cmd.length → 1 + cmd.length ≤ s.params.tmax →
    ∃ t, exec (.sendCommand cmd) s = .next t
      ∧ (1 + cmd.length ≤ s.params.stageCap →
          ∃ a, t.wire = s.wire ++ [{ addr := s.addr, bytes := s.params.ctrlCmd.byte :: cmd, answer := a }]
            ∧ (∀ b rest, s.answers = b :: rest → a = b)
            ∧ (a = .ok → t.ret = .framer .ok) ∧ ∀ e, a = .err e → t.ret = .framer (.err (.transportError e)))
      ∧ (s.params.stageCap < 1 + cmd.length →
          t.wire = s.wire ∧ t.ret = .framer (.err (.payloadOverflow (1 + cmd.length))))
      ∧ t.fb = s.fb ∧ t.cfg = s.cfg ∧ t.addr = s.addr ∧ t.busPresent = s.busPresent ∧ t.bstate = s.bstate ∧ t.seq = s.seq
      ∧ t.result = s.result ∧ t.wireBase = s.wireBase ∧ t.params = s.params ∧ t.port = s.port

/-- R179, R180: in an idle session SEND_COMMAND of no bytes, and of bytes that do not fit one frame of `TMAX`, is refused. -/
def Obligations.SendCommandRefusals : Prop :=
  ∀ (s : State) (cmd : List Byte), s.seq = .idle → s.bstate = .built →
    (cmd = [] → exec (.sendCommand cmd) s = .refused .emptyCommand)
      ∧ (cmd ≠ [] → s.params.tmax < 1 + cmd.length → exec (.sendCommand cmd) s = .refused (.commandTooLong cmd.length))

/-- R171, R173, R174, R182: SEND_DATA in an idle session always completes, and when it ends `Ok` the frames it appended to `WIRE`
carry the data: each answered `Ok`, sent to `ADDR`, `0x40` first, 2 to `TMAX` bytes; their payloads concatenated are the data; their
number is `ceil(len / (TMAX - 1))`; and each but the last has `TMAX` bytes. The answers recorded are the transport's, in order: the
queued ones as far as they reach (log entry 6), which are used up. When that many answers `Ok` are queued and the longest frame
fits the staging buffer, it does end `Ok`. `FB`, the registers, `SEQ`, `BSTATE` and `RESULT` are unchanged whatever the end. -/
def Obligations.SendDataSendsTheData : Prop :=
  ∀ (s : State) (data : List Byte), s.seq = .idle → s.bstate = .built → s.params.legal →
    ∃ (t : State) (payloads : List (List Byte)) (new : List WireEntry), exec (.sendData data) s = .next t ∧ t.wire = s.wire ++ new
      ∧ (t.ret = .framer .ok →
          new = payloads.map (fun p => okEntry s.addr (0x40 :: p)) ∧ payloads.flatten = data
            ∧ (∀ p ∈ payloads, 2 ≤ p.length + 1 ∧ p.length + 1 ≤ s.params.tmax)
            ∧ payloads.length = (data.length + (s.params.tmax - 1) - 1) / (s.params.tmax - 1)
            ∧ ∀ p ∈ payloads.dropLast, p.length + 1 = s.params.tmax)
      ∧ (new.map WireEntry.answer).take s.answers.length = s.answers.take new.length ∧ t.answers = s.answers.drop new.length
      ∧ (∀ rest, s.answers = List.replicate ((data.length + (s.params.tmax - 1) - 1) / (s.params.tmax - 1)) .ok ++ rest →
          1 + min (s.params.tmax - 1) data.length ≤ s.params.stageCap → t.ret = .framer .ok ∧ t.answers = rest)
      ∧ t.fb = s.fb ∧ t.cfg = s.cfg ∧ t.addr = s.addr ∧ t.busPresent = s.busPresent ∧ t.bstate = s.bstate ∧ t.seq = s.seq
      ∧ t.result = s.result ∧ t.wireBase = s.wireBase ∧ t.params = s.params ∧ t.port = s.port

/-- R175: when SEND_DATA ends in an error, the frames before the failing one stay in `WIRE`, all answered `Ok`, with a proper
prefix of the data as their payloads; the failing frame follows with its answer `Err(e)`, or is absent for PayloadOverflow;
and nothing comes after it. -/
def Obligations.SendDataStopsAtFirstFailure : Prop :=
  ∀ (s t : State) (data : List Byte) (c : Cause), s.params.legal →
    exec (.sendData data) s = .next t → t.ret = .framer (.err c) → s.seq = .idle → s.bstate = .built →
      ∃ (payloads : List (List Byte)) (failing rest : List Byte), payloads.flatten ++ failing ++ rest = data ∧ failing ≠ []
        ∧ match c with
          | .transportError e =>
            t.wire = s.wire ++ payloads.map (fun p => okEntry s.addr (0x40 :: p))
              ++ [{ addr := s.addr, bytes := 0x40 :: failing, answer := .err e }]
          | .payloadOverflow n =>
            t.wire = s.wire ++ payloads.map (fun p => okEntry s.addr (0x40 :: p)) ∧ n = 1 + failing.length
              ∧ s.params.stageCap < n

/-- R8, R176, R253: in a well-configured block no step ends in PayloadOverflow, plain or as the cause of InitializationFailed or
of a framer procedure's end. -/
def Obligations.NoOverflowWhenWellConfigured : Prop :=
  ∀ s t : State, s.params.legal → s.params.wellConfigured → step s = .next t →
    (∀ n, t.result = .err (.payloadOverflow n) → s.result = t.result)
      ∧ (∀ n, t.result = .err (.initializationFailed (.payloadOverflow n)) → s.result = t.result)
      ∧ ∀ n, t.ret = .framer (.err (.payloadOverflow n)) → s.ret = t.ret

/-! INITIALIZE (43_initialize). -/

/-- R191, the opcode of COM_PINS being `Config.opComPins` (log entry 10): the bytes of `INIT_CMD(k)`. -/
def Obligations.InitFrameTable : Prop :=
  ∀ cfg : Straps, (List.finRange 15).map (initCmd cfg) =
    ([[0xAE], [0xD5, (cfg.clkFreq.setWidth 8 <<< 4) ||| cfg.clkRatio.setWidth 8], [0xA8, 0x7F], [0xD3, cfg.offset], [0xDC, 0x00],
     [0xAD, 0x8B], [if cfg.segRemap = 0 then 0xA0 else 0xA1], [if cfg.comRemap = 0 then 0xC0 else 0xC8],
     [Config.opComPins, cfg.comPins], [0x81, cfg.contrast], [0xD9, cfg.precharge], [0xDB, cfg.vcom], [0xA4], [0xA6], [0xAF]] :
      List (List Byte))

/-- R193, R195: INITIALIZE accepted in an idle session starts at `INIT(HOST, 0)`; and one step at `INIT(ctx, k)`. A frame answered
`Ok` moves to `k + 1`, the last one ends the walk with `OK` (and `Built` if BUILD started it); a frame answered `Err(e)` or too
long ends it with InitializationFailed and its cause (and `Failed(InitializationFailed)` if BUILD started it). `FB`, `ADDR`,
`BUS_PRESENT`, `CFG_*` and the parameters stay, and so does `BSTATE` in a walk that INITIALIZE started. -/
def Obligations.InitializeAndItsWalkSteps : Prop :=
  (∀ s : State, s.seq = .idle → s.bstate = .built →
      exec .initializeOp s = .next { s with result := .none, seq := .init .host 0 })
    ∧ ∀ (s : State) (ctx : Ctx) (k : Fin 15), s.seq = .init ctx k →
    ∃ t, seqStep s = .next t
      ∧ t.fb = s.fb ∧ t.addr = s.addr ∧ t.busPresent = s.busPresent ∧ t.cfg = s.cfg ∧ t.params = s.params ∧ t.ret = s.ret
      ∧ (s.params.stageCap < 1 + (initCmd s.cfg k).length →
          t.wire = s.wire ∧ t.seq = .idle
            ∧ t.result = .err (.initializationFailed (.payloadOverflow (1 + (initCmd s.cfg k).length)))
            ∧ t.bstate = match ctx with
                | .host => s.bstate
                | .build => .failed .initializationFailed)
      ∧ (1 + (initCmd s.cfg k).length ≤ s.params.stageCap →
          t.wire = s.wire ++ [{ addr := s.addr, bytes := s.params.ctrlCmd.byte :: initCmd s.cfg k, answer := s.nextAnswer }]
          ∧ (∀ e, s.nextAnswer = .err e →
              t.seq = .idle ∧ t.result = .err (.initializationFailed (.transportError e))
                ∧ t.bstate = match ctx with
                  | .host => s.bstate
                  | .build => .failed .initializationFailed)
          ∧ (s.nextAnswer = .ok →
              (∀ h : k.val + 1 < 15, t.seq = .init ctx ⟨k.val + 1, h⟩ ∧ t.result = s.result ∧ t.bstate = s.bstate)
                ∧ (k.val = 14 → t.seq = .idle ∧ t.result = .ok
                    ∧ t.bstate = match ctx with
                      | .host => s.bstate
                      | .build => .built)))

/-- R199 b: a walk from `INIT(ctx, 0)` all of whose frames fit and are answered `Ok` (queued, log entry 6) ends after 15 steps with
`OK`, having appended exactly the 15 frames of the table, in order, to `ADDR`, and with `FB`, `ADDR`, `BUS_PRESENT` and `CFG_*`
unchanged. -/
def Obligations.InitWalkSendsFifteenFrames : Prop :=
  ∀ (s : State) (ctx : Ctx) (rest : List Answer), s.seq = .init ctx 0 → s.port = [] → 3 ≤ s.params.stageCap →
    s.answers = List.replicate 15 .ok ++ rest →
      ∃ t, runSteps 15 s = .next t ∧ t.seq = .idle ∧ t.result = .ok ∧ t.wire = s.wire ++ initEntries s 15
        ∧ t.answers = rest ∧ t.fb = s.fb ∧ t.addr = s.addr ∧ t.busPresent = s.busPresent ∧ t.cfg = s.cfg
        ∧ t.bstate = match ctx with
          | .host => s.bstate
          | .build => .built

/-- R194, R199 c: a walk from `INIT(ctx, 0)` whose frame `k` is the first to fail ends after `k + 1` steps with InitializationFailed
and its cause, having appended frames 0 to `k - 1` answered `Ok` and no later frame: frame `k` is there with its answer `Err(e)`,
or absent if it is too long for the staging buffer. The answers are queued (log entry 6). -/
def Obligations.InitWalkStopsAtFirstFailure : Prop :=
  ∀ (s : State) (ctx : Ctx) (k : Fin 15) (rest : List Answer), s.seq = .init ctx 0 → s.port = [] →
    (∀ j < k, 1 + (initCmd s.cfg j).length ≤ s.params.stageCap) →
      (∀ e, 1 + (initCmd s.cfg k).length ≤ s.params.stageCap → s.answers = List.replicate k.val .ok ++ .err e :: rest →
        ∃ t, runSteps (k.val + 1) s = .next t ∧ t.seq = .idle
          ∧ t.result = .err (.initializationFailed (.transportError e))
          ∧ t.wire = s.wire ++ initEntries s k.val
              ++ [{ addr := s.addr, bytes := s.params.ctrlCmd.byte :: initCmd s.cfg k, answer := .err e }]
          ∧ t.fb = s.fb ∧ t.addr = s.addr ∧ t.busPresent = s.busPresent ∧ t.cfg = s.cfg
          ∧ t.bstate = match ctx with
            | .host => s.bstate
            | .build => .failed .initializationFailed)
      ∧ (s.params.stageCap < 1 + (initCmd s.cfg k).length → s.answers = List.replicate k.val .ok ++ rest →
        ∃ t, runSteps (k.val + 1) s = .next t ∧ t.seq = .idle
          ∧ t.result = .err (.initializationFailed (.payloadOverflow (1 + (initCmd s.cfg k).length)))
          ∧ t.wire = s.wire ++ initEntries s k.val
          ∧ t.fb = s.fb ∧ t.addr = s.addr ∧ t.busPresent = s.busPresent ∧ t.cfg = s.cfg
          ∧ t.bstate = match ctx with
            | .host => s.bstate
            | .build => .failed .initializationFailed)

/-! FLUSH (44_flush). -/

/-- R212: FLUSH accepted in an idle session starts at `FLUSH(0, PAGE, 0)`; and one step at `FLUSH(p, ph, o)`: the frame it emits, the
position after it when it is answered `Ok`, and the end with that error, unwrapped, when it fails. -/
def Obligations.FlushAndItsWalkSteps : Prop :=
  (∀ s : State, s.seq = .idle → s.bstate = .built → exec .flush s = .next { s with result := .none, seq := .flush 0 .page })
    ∧ ∀ (s : State) (p : Fin 16) (ph : Phase), s.seq = .flush p ph →
    ∃ (t : State) (ctrl : Byte) (payload : List Byte), seqStep s = .next t
      ∧ (match ph with
          | .page => ctrl = s.params.ctrlCmd.byte ∧ payload = [0xB0 ||| (BitVec.ofNat 8 p.val &&& 0x0F)]
          | .colLo => ctrl = s.params.ctrlCmd.byte ∧ payload = [0x00]
          | .colHi => ctrl = s.params.ctrlCmd.byte ∧ payload = [0x10]
          | .data o =>
            ctrl = 0x40 ∧ payload = fbBytes s.fb (128 * p.val + o.val) (min (s.params.tmax - 1) (128 - o.val)))
      ∧ t.fb = s.fb ∧ t.bstate = s.bstate ∧ t.addr = s.addr ∧ t.busPresent = s.busPresent ∧ t.cfg = s.cfg
      ∧ t.params = s.params ∧ t.ret = s.ret
      ∧ (s.params.stageCap < 1 + payload.length →
          t.wire = s.wire ∧ t.seq = .idle ∧ t.result = .err (.payloadOverflow (1 + payload.length)))
      ∧ (1 + payload.length ≤ s.params.stageCap →
          t.wire = s.wire ++ [{ addr := s.addr, bytes := ctrl :: payload, answer := s.nextAnswer }]
          ∧ (∀ e, s.nextAnswer = .err e → t.seq = .idle ∧ t.result = .err (.transportError e))
          ∧ (s.nextAnswer = .ok → match ph with
              | .page => t.seq = .flush p .colLo ∧ t.result = s.result
              | .colLo => t.seq = .flush p .colHi ∧ t.result = s.result
              | .colHi => t.seq = .flush p (.data 0) ∧ t.result = s.result
              | .data o =>
                let n := min (s.params.tmax - 1) (128 - o.val)
                (∀ h : o.val + n < 128, t.seq = .flush p (.data ⟨o.val + n, h⟩) ∧ t.result = s.result)
                  ∧ (o.val + n = 128 → ∀ h : p.val + 1 < 16, t.seq = .flush ⟨p.val + 1, h⟩ .page ∧ t.result = s.result)
                  ∧ (o.val + n = 128 → p.val = 15 → t.seq = .idle ∧ t.result = .ok)))

/-- R215, R219 f: a FLUSH from `FLUSH(0, PAGE, 0)` that has ended in an error, whatever the transport answered and however many steps
ago: `RESULT` is the plain error of the first frame that failed, `WIRE` gained the frames of R214 before that one, all answered
`Ok`, then that frame with its answer `Err(e)`, or nothing if it was too long for the staging buffer, and no later frame; `FB`,
`ADDR`, `BUS_PRESENT`, `BSTATE` and `CFG_*` are unchanged. -/
def Obligations.FlushStopsAtFirstFailure : Prop :=
  ∀ (n : Nat) (s t : State) (error : Error), s.seq = .flush 0 .page → s.port = [] → s.result = .none →
    s.params.legal → runSteps n s = .next t → t.result = .err error →
      ∃ (sent : List (List Byte)) (failing : List Byte) (later : List (List Byte)),
        (List.range 16).flatMap (pageFrames s) = sent ++ failing :: later ∧ t.seq = .idle
          ∧ (match error with
              | .transportError e =>
                t.wire = s.wire ++ sent.map (okEntry s.addr) ++ [{ addr := s.addr, bytes := failing, answer := .err e }]
              | .payloadOverflow m =>
                t.wire = s.wire ++ sent.map (okEntry s.addr) ∧ m = failing.length ∧ s.params.stageCap < m
              | .noBusConnected => False
              | .initializationFailed _ => False)
          ∧ t.fb = s.fb ∧ t.addr = s.addr ∧ t.busPresent = s.busPresent ∧ t.bstate = s.bstate ∧ t.cfg = s.cfg

/-- R214: a FLUSH from `FLUSH(0, PAGE, 0)` that has ended `OK`, whatever the transport answered and however many steps ago, has
appended to `WIRE` exactly the frames of R214, in that order, all to `ADDR` and answered `Ok`, and nothing else; `FB` is
unchanged. -/
def Obligations.FlushThatEndsOkSentTheFramebuffer : Prop :=
  ∀ (n : Nat) (s t : State), s.seq = .flush 0 .page → s.port = [] → s.result = .none → s.params.legal →
    runSteps n s = .next t → t.result = .ok → t.seq = .idle ∧ t.wire = s.wire ++ flushEntries s ∧ t.fb = s.fb

/-- R214, R217, R219 a, b: a FLUSH from `FLUSH(0, PAGE, 0)` whose longest frame fits the staging buffer, all of whose frames are
answered `Ok` (queued, log entry 6), ends `OK` after exactly `16 * (3 + k)` steps, with the frames of R214 appended. -/
def Obligations.FlushSendsTheFramebuffer : Prop :=
  ∀ (s : State) (rest : List Answer), s.seq = .flush 0 .page → s.port = [] → s.params.legal →
    1 + min (s.params.tmax - 1) 128 ≤ s.params.stageCap →
    s.answers = List.replicate (16 * (3 + framesPerPage (s.params.tmax - 1))) .ok ++ rest →
      ∃ t, runSteps (16 * (3 + framesPerPage (s.params.tmax - 1))) s = .next t
        ∧ t.seq = .idle ∧ t.result = .ok ∧ t.wire = s.wire ++ flushEntries s ∧ t.answers = rest
        ∧ t.fb = s.fb ∧ t.addr = s.addr ∧ t.bstate = s.bstate ∧ t.cfg = s.cfg

/-- R35 e, R219 e, R199 d: no step of the sequencer writes `FB`, `ADDR`, `BUS_PRESENT`, `CFG_*`, the parameters or the record of
returned values, whatever its outcome, in any state. -/
def Obligations.SequencerNeverWritesFramebuffer : Prop :=
  ∀ s t : State, seqStep s = .next t →
    t.fb = s.fb ∧ t.addr = s.addr ∧ t.busPresent = s.busPresent ∧ t.cfg = s.cfg ∧ t.params = s.params ∧ t.ret = s.ret
      ∧ t.port = s.port ∧ t.wireBase = s.wireBase

/-- R30 (the assumption about the controller), R214, R219 g: while a FLUSH runs, the controller's RAM mirrors the framebuffer
bytes sent so far and its pointers stand where the next byte goes; every step keeps that, and when FLUSH ends `OK` the RAM
mirrors all of `FB`, and counts as known whatever was cancelled or failed before (R68, R218). Rests on log entry 11, and on the
opcode of COM_PINS (log entry 10). -/
def Obligations.FlushMirrorsTheFramebuffer : Prop :=
  ∀ s t : State, s.Inv → s.FlushMirrors → step s = .next t →
    t.FlushMirrors
      ∧ ∀ p ph, s.seq = .flush p ph → t.result = .ok → t.ctl.known = t.ctl ∧ ∀ i < 2048, mirrored t i

/-! The Builder (45_builder). -/

/-- R231: CONNECT in an idle builder. -/
def Obligations.ConnectSuppliesTheBus : Prop :=
  ∀ (s : State) (addr : Byte), s.seq = .idle → s.bstate = .unconfigured ∨ s.bstate = .configured →
    exec (.connect addr) s = .next { s with busPresent := true, addr := addr, bstate := .configured }

/-- R232, R233: BUILD in an idle builder. Without a bus handle it fails at once, and nothing but `BSTATE` and `RESULT` changes; with
one, every byte of `FB` is zeroed and the walk starts, `RESULT` cleared and `BSTATE` staying as it is. -/
def Obligations.BuildFailsOrStartsTheWalk : Prop :=
  ∀ s : State, s.seq = .idle → s.bstate = .unconfigured ∨ s.bstate = .configured →
    (s.busPresent = false →
        exec .build s = .next { s with bstate := .failed .noBusConnected, result := .err .noBusConnected })
      ∧ (s.busPresent = true →
        ∃ fb, exec .build s = .next { s with fb := fb, result := .none, seq := .init .build 0 }
          ∧ ∀ i < 2048, readByte fb i = 0x00)

/-- R235, R236, R240 e: every transition of `BSTATE` in one step from a state that meets the invariant is one of the table's;
`Built` and `Failed` are left only to `Unconfigured` with everything else reset. -/
def Obligations.BuilderTransitions : Prop :=
  ∀ s t : State, s.Inv → step s = .next t →
    t.bstate = s.bstate
      ∨ (t.bstate = .unconfigured ∧ t.seq = .idle ∧ t.fb = [] ∧ t.busPresent = false ∧ t.addr = Config.addrDefault
          ∧ (t.result = .none ∨ t.result = .cancelled ∧ s.seq.isBuildWalk = true) ∧ t.wire = s.wire)
      ∨ (s.bstate = .unconfigured ∧ s.seq = .idle ∧ t.bstate = .configured ∧ t.busPresent = true ∧ t.result = s.result)
      ∨ (s.bstate = .unconfigured ∧ s.seq = .idle ∧ t.bstate = .failed .noBusConnected ∧ t.result = .err .noBusConnected
          ∧ t.wire = s.wire)
      ∨ (s.bstate = .configured ∧ s.seq = .init .build 14 ∧ t.bstate = .built ∧ t.result = .ok ∧ t.seq = .idle)
      ∨ (s.bstate = .configured ∧ s.seq.isBuildWalk = true ∧ t.bstate = .failed .initializationFailed ∧ t.seq = .idle
          ∧ ∃ c, t.result = .err (.initializationFailed c))

/-- R240 b, c, d, R296: the record of a block in `Built` begins, since the last reset, with the 15 initialise frames answered
`Ok` and sent to `ADDR`; before that it holds nothing but the frames of BUILD's walk, over a zeroed framebuffer. Every step
keeps this. -/
def Obligations.StepKeepsBootTrace : Prop :=
  ∀ s t : State, s.Inv → s.BootTrace → step s = .next t → t.BootTrace

/-! Errors, CANCEL, DROP, reset (60_exceptions, 70_reset_and_hazards). -/

/-- R256: the abort: `SEQ` to `IDLE`, `RESULT` to the error, `BSTATE` to `Failed(InitializationFailed)` in a walk that BUILD
started; every other piece of state of the block, and `WIRE`, unchanged. -/
def Obligations.AbortEffect : Prop :=
  ∀ (s : State) (e : Error),
    (s.raiseError e).seq = .idle ∧ (s.raiseError e).result = .err e
      ∧ (∀ k, s.seq = .init .build k → (s.raiseError e).bstate = .failed .initializationFailed)
      ∧ ((∀ k, s.seq ≠ .init .build k) → (s.raiseError e).bstate = s.bstate)
      ∧ { s.raiseError e with seq := s.seq, result := s.result, bstate := s.bstate, ctl := s.ctl } = s

/-- R262, R218: CANCEL in the `nonblocking` binding while an operation runs: during BUILD's walk everything is reset as by DROP
but `WIRE` is kept and `RESULT` is `CANCELLED`; else the operation ends with `CANCELLED`, and the session, `FB`, `ADDR` and `WIRE`
stay. The controller is unknown from then on, no cell and no pointer of it counting as known, through every step but the one in
which a later FLUSH ends `OK`. -/
def Obligations.CancelEffect : Prop :=
  (∀ s : State, s.params.binding = .nonblocking → s.seq ≠ .idle →
    ∃ t, exec .cancel s = .next t ∧ t.seq = .idle ∧ t.result = .cancelled ∧ t.wire = s.wire ∧ t.cfg = s.cfg
      ∧ t.params = s.params ∧ t.ctl.reliance = .unknown
      ∧ ((∃ k, s.seq = .init .build k) →
          t.fb = [] ∧ t.addr = 0x3C ∧ t.busPresent = false ∧ t.bstate = .unconfigured ∧ t.stageLen = 0)
      ∧ ((∀ k, s.seq ≠ .init .build k) →
          { t with seq := s.seq, result := s.result, ctl := s.ctl } = s))
    ∧ (∀ c : Controller, c.reliance = .unknown →
        c.known.ram = [] ∧ c.known.page = none ∧ c.known.colLo = none ∧ c.known.colHi = none)
    ∧ ∀ s t : State, s.ctl.reliance = .unknown → step s = .next t →
        t.ctl.reliance = .unknown ∨ ∃ p ph, s.seq = .flush p ph ∧ t.seq = .idle ∧ t.result = .ok

/-- R291, R34, R290, C16: DROP in every state: `FB` zero, `ADDR` `0x3C`, no bus, `Unconfigured`, `IDLE`, `NONE`, `STAGE_LEN` 0, the
straps and parameters kept, `WIRE` kept, "`WIRE` since reset" (R29) empty. The controller is not reset; an operation in flight
leaves it unknown (R262). -/
def Obligations.DropResetsEverything : Prop :=
  ∀ s : State, ∃ t, exec .drop s = .next t
    ∧ (∀ i, readByte t.fb i = 0x00) ∧ t.addr = 0x3C ∧ t.busPresent = false ∧ t.bstate = .unconfigured ∧ t.seq = .idle
    ∧ t.busy = false ∧ t.result = .none ∧ t.stageLen = 0 ∧ t.cfg = s.cfg ∧ t.params = s.params ∧ t.wire = s.wire
    ∧ t.wireSinceReset = [] ∧ (s.seq = .idle → t.ctl = s.ctl)
    ∧ (s.seq ≠ .idle → t.ctl.reliance = .unknown
        ∧ t.ctl.ram = [] ∧ t.ctl.page = none ∧ t.ctl.colLo = none ∧ t.ctl.colHi = none)

/-- R34: the values the spec gives for the state after power-on and after DROP. -/
def Obligations.ResetValues : Prop :=
  (∀ u : State, u = State.reset ∨ (∃ s : State, exec .drop s = .next u) →
      (∀ i, readByte u.fb i = 0x00) ∧ u.addr = 0x3C ∧ u.busPresent = false ∧ u.bstate = .unconfigured ∧ u.seq = .idle
        ∧ u.busy = false ∧ u.result = .none ∧ u.stageLen = 0)
    ∧ State.reset.wire = []
    ∧ ∀ s u : State, exec .drop s = .next u → u.cfg = s.cfg ∧ u.wire = s.wire

/-! The whole machine. -/

/-- R7, R25, R28, R31, R35: the invariant: legal parameters, a canonical framebuffer, `BSTATE` against `BUS_PRESENT` and `SEQ`, no
result while busy, the staging buffer and every frame of `WIRE` within their bounds. Every step keeps it. -/
def Obligations.StepKeepsInvariant : Prop := ∀ s t : State, s.Inv → step s = .next t → t.Inv

/-- R34, R35: the invariant and the boot record hold after reset, whatever the straps and the parameters. -/
def Obligations.ResetMeetsInvariant : Prop := State.reset.Inv ∧ State.reset.BootTrace

/-- R51, R216: no step faults: no MemRead and no MemWrite is refused. -/
def Obligations.StepNeverFaults : Prop := ∀ s : State, SafeStep s

/-- R21, R33: no step changes a configuration register or a parameter. -/
def Obligations.ConfigurationIsConstant : Prop :=
  ∀ s t : State, step s = .next t → t.cfg = s.cfg ∧ t.params = s.params

/-- R29, R35 d, R64 c, R81, R88 a: a step only appends to `WIRE`; every entry it appends was sent to `ADDR` as it stood, and begins
with `CTRL_CMD` or `0x40`; and each frame of the sequencer is one entry at most. -/
def Obligations.WireOnlyGrows : Prop :=
  (∀ s t : State, step s = .next t → ∃ new, t.wire = s.wire ++ new
      ∧ ∀ e ∈ new, e.addr = s.addr ∧ ∃ c payload, e.bytes = c :: payload ∧ (c = s.params.ctrlCmd.byte ∨ c = 0x40))
    ∧ ∀ s t : State, seqStep s = .next t → t.wire.length ≤ s.wire.length + 1

/-- R64 e, R238, R307: while an operation runs, no step writes `FB`, unless it ends the session (DROP, or CANCEL during BUILD's
walk), which zeroes it. -/
def Obligations.FramebufferIsFrozenWhileBusy : Prop :=
  ∀ s t : State, s.busy = true → step s = .next t → t.fb = s.fb ∨ (t.bstate = .unconfigured ∧ t.seq = .idle ∧ t.fb = [])

/-- R9: the two bindings take the same steps: of two states that differ only in `BINDING`, when an instruction other than CANCEL, or
the sequencer's step, takes one to a next state, it takes the other to the same state but for `BINDING`. -/
def Obligations.BindingChangesOnlyCancel : Prop :=
  ∀ (s t : State) (b : Binding),
    (∀ i : Instr, i ≠ .cancel → exec i s = .next t →
        exec i { s with params := { s.params with binding := b } } = .next { t with params := { t.params with binding := b } })
      ∧ (seqStep s = .next t →
        seqStep { s with params := { s.params with binding := b } } = .next { t with params := { t.params with binding := b } })

/-- R270: the observer changes nothing: of two states that differ only in whether one is present, and in what it was told (log
entry 15), when one steps to a next state so does the other, and the next states differ in the same two things only. -/
def Obligations.ObserverChangesNothing : Prop :=
  ∀ (s t : State) (present : Bool) (told : List ObserverCall), step s = .next t →
    ∃ told', step { s with params := { s.params with observer := present }, observed := told }
      = .next { t with params := { t.params with observer := present }, observed := told' }

/-- R91, R191, R214: the five pseudo-operations expand as R91 says; and they are what the walks send: ORIENTATION is frames 6 and 7
and RAM_DISPLAY frames 12 and 13 of the initialise walk, CHARGE_PUMP(true) its frame 5, and SELECT(p) the three select frames of
page `p`. -/
def Obligations.PseudoOperationsAreSent : Prop :=
  (∀ (cfg : Straps) (b : Byte),
      expandPseudo cfg (.columnAddress b) = [.columnLow b, .columnHigh b]
        ∧ expandPseudo cfg (.select b) = [.pageAddress b, .columnLow 0, .columnHigh 0]
        ∧ expandPseudo cfg .orientation
            = [if cfg.segRemap = 0 then .segmentRemapNormal else .segmentRemapRemapped,
               if cfg.comRemap = 0 then .comScanNormal else .comScanRemapped]
        ∧ expandPseudo cfg .ramDisplay = [.entireDisplayResume, .displayNormal]
        ∧ expandPseudo cfg (.chargePump true) = [.chargePumpOn] ∧ expandPseudo cfg (.chargePump false) = [.chargePumpOff]
        ∧ (expandPseudo cfg .orientation).map commandBytes = [initCmd cfg 6, initCmd cfg 7]
        ∧ (expandPseudo cfg .ramDisplay).map commandBytes = [initCmd cfg 12, initCmd cfg 13]
        ∧ (expandPseudo cfg (.chargePump true)).map commandBytes = [initCmd cfg 5])
    ∧ ∀ (s : State) (p : Fin 16),
        (expandPseudo s.cfg (.select (BitVec.ofNat 8 p.val))).map (fun i => some (s.params.ctrlCmd.byte, commandBytes i))
          = [flushFrame s p .page, flushFrame s p .colLo, flushFrame s p .colHi]

/-! The controller after a failure (10_state R30, 93_implementation_defined U1, U7). -/

/-- R68, R215, R302, R175, U1, U7, as log entry 12 takes them: what stays known of the controller after a failure. A FLUSH whose step
at page `p` ends it in an error leaves the cells of the pages before `p` as they were, and known unless a CANCEL made them unknown
(log entry 29), and every other cell, and both pointers, undetermined; a failed step of an initialise walk, and a framer procedure
that ends in an error, leave nothing determined. From there on no step makes more cells count as known but the one in which a FLUSH
ends `OK`, or fails in its turn. -/
def Obligations.FailureForgetsTheController : Prop :=
  let nothingElse : State → Prop := fun t => t.ctl.page = none ∧ t.ctl.colLo = none ∧ t.ctl.colHi = none
  (∀ (s t : State) (p : Fin 16) (ph : Phase) (e : Error), s.seq = .flush p ph → s.result = .none →
      seqStep s = .next t → t.result = .err e →
        (∀ i < 128 * p.val, Cells.lookup t.ctl.ram i = Cells.lookup s.ctl.ram i)
          ∧ (s.ctl.reliance ≠ .unknown → t.ctl.reliance = .below (128 * p.val))
          ∧ (s.ctl.reliance = .unknown → t.ctl.reliance = .unknown)
          ∧ (∀ i, 128 * p.val ≤ i → Cells.lookup t.ctl.ram i = none) ∧ nothingElse t)
    ∧ (∀ (s t : State) (ctx : Ctx) (k : Fin 15) (e : Error), s.seq = .init ctx k → s.result = .none →
        seqStep s = .next t → t.result = .err e →
          t.ctl.ram = [] ∧ nothingElse t ∧ (t.ctl.reliance = .below 0 ∨ t.ctl.reliance = .unknown))
    ∧ (∀ (s t : State) (i : Instr) (bytes : List Byte) (c : Cause), i = .sendCommand bytes ∨ i = .sendData bytes →
        exec i s = .next t → t.ret = .framer (.err c) →
          t.ctl.ram = [] ∧ nothingElse t ∧ (t.ctl.reliance = .below 0 ∨ t.ctl.reliance = .unknown))
    ∧ (∀ (c : Controller) (n : Nat), c.reliance = .below n → c.known.page = none ∧ c.known.colLo = none ∧ c.known.colHi = none
        ∧ ∀ i, Cells.lookup c.known.ram i = if i < n then Cells.lookup c.ram i else none)
    ∧ ∀ (s t : State) (n : Nat), s.ctl.reliance = .below n → step s = .next t →
        t.ctl.reliance = .below n ∨ t.ctl.reliance = .below 0 ∨ t.ctl.reliance = .unknown
          ∨ ∃ p ph, s.seq = .flush p ph ∧ t.seq = .idle
              ∧ (t.result = .ok ∨ ∃ e, t.result = .err e ∧ t.ctl.reliance = .below (128 * p.val))
end

