-- ==== Sys2Proof/Laws/Memory.lean ====
section
/-! SUPPORT. The laws of byte memories: read after write, every operation keeps the canonical form, equal reads are equal
memories, and what MemRead and MemWrite answer. -/

namespace Sys2Proof.Machine

theorem Cells.lookup_insert (m : List Host.Cell) (i j : Nat) (v : Byte) :
    Cells.lookup (Cells.insert i v m) j = if j = i then some v else Cells.lookup m j := by
  induction m with
  | nil => simp [Cells.insert, Cells.lookup]
  | cons c m ih =>
    obtain ⟨a, b⟩ := c
    simp only [Cells.insert]
    split_ifs <;> simp_all [Cells.lookup]

theorem Cells.lookup_below (m : List Host.Cell) (lo i : Nat) (h : Cells.rising lo m = true) (hi : i < lo) :
    Cells.lookup m i = none := by
  induction m generalizing lo with
  | nil => rfl
  | cons c m ih =>
    obtain ⟨a, b⟩ := c
    simp only [Cells.rising, Bool.and_eq_true, decide_eq_true_eq] at h
    have hne : i ≠ a := by omega
    simp only [Cells.lookup, if_neg hne]
    exact ih (a + 1) h.2 (by omega)

theorem Cells.lookup_erase (m : List Host.Cell) (lo i j : Nat) (h : Cells.rising lo m = true) :
    Cells.lookup (Cells.erase i m) j = if j = i then none else Cells.lookup m j := by
  induction m generalizing lo with
  | nil => simp [Cells.erase, Cells.lookup]
  | cons c m ih =>
    obtain ⟨a, b⟩ := c
    simp only [Cells.rising, Bool.and_eq_true, decide_eq_true_eq] at h
    simp only [Cells.erase]
    by_cases hia : i = a
    · subst hia
      by_cases hj : j = i
      · subst hj; simp [Cells.lookup_below m (j + 1) j h.2 (by omega)]
      · simp [Cells.lookup, hj]
    · simp only [if_neg hia, Cells.lookup, ih (a + 1) h.2]
      by_cases hja : j = a
      · subst hja; simp [Ne.symm hia]
      · simp [hja]

theorem Cells.rising_mono (m : List Host.Cell) (lo lo' : Nat) (h : Cells.rising lo m = true) (hl : lo' ≤ lo) :
    Cells.rising lo' m = true := by
  cases m with
  | nil => rfl
  | cons c m =>
    simp only [Cells.rising, Bool.and_eq_true, decide_eq_true_eq] at h ⊢
    exact ⟨⟨by omega, h.1.2⟩, h.2⟩

theorem Cells.rising_insert (m : List Host.Cell) (lo i : Nat) (v : Byte) (h : Cells.rising lo m = true) (hlo : lo ≤ i)
    (hi : i < 2048) : Cells.rising lo (Cells.insert i v m) = true := by
  induction m generalizing lo with
  | nil => simp [Cells.insert, Cells.rising, hlo, hi]
  | cons c m ih =>
    obtain ⟨a, b⟩ := c
    simp only [Cells.rising, Bool.and_eq_true, decide_eq_true_eq] at h
    simp only [Cells.insert]
    split_ifs with h1 h2
    · simp only [Cells.rising, Bool.and_eq_true, decide_eq_true_eq]
      exact ⟨⟨hlo, hi⟩, ⟨by omega, h.1.2⟩, h.2⟩
    · subst h2
      simp only [Cells.rising, Bool.and_eq_true, decide_eq_true_eq]
      exact ⟨⟨hlo, hi⟩, h.2⟩
    · simp only [Cells.rising, Bool.and_eq_true, decide_eq_true_eq]
      exact ⟨h.1, ih (a + 1) h.2 (by omega)⟩

theorem Cells.rising_erase (m : List Host.Cell) (lo i : Nat) (h : Cells.rising lo m = true) :
    Cells.rising lo (Cells.erase i m) = true := by
  induction m generalizing lo with
  | nil => rfl
  | cons c m ih =>
    obtain ⟨a, b⟩ := c
    simp only [Cells.rising, Bool.and_eq_true, decide_eq_true_eq] at h
    simp only [Cells.erase]
    split_ifs with h1
    · exact Cells.rising_mono m (a + 1) lo h.2 (by omega)
    · simp only [Cells.rising, Bool.and_eq_true, decide_eq_true_eq]
      exact ⟨h.1, ih (a + 1) h.2⟩

theorem Cells.rising_keepBelow (m : List Host.Cell) (lo n : Nat) (h : Cells.rising lo m = true) :
    Cells.rising lo (Cells.keepBelow n m) = true := by
  induction m generalizing lo with
  | nil => rfl
  | cons c m ih =>
    obtain ⟨a, b⟩ := c
    simp only [Cells.rising, Bool.and_eq_true, decide_eq_true_eq] at h
    have hm := ih (a + 1) h.2
    simp only [Cells.keepBelow, List.filter_cons] at hm ⊢
    split_ifs
    · simp only [Cells.rising, Bool.and_eq_true, decide_eq_true_eq]
      exact ⟨h.1, hm⟩
    · exact Cells.rising_mono _ (a + 1) lo hm (by omega)

theorem Cells.lookup_keepBelow (m : List Host.Cell) (n i : Nat) :
    Cells.lookup (Cells.keepBelow n m) i = if i < n then Cells.lookup m i else none := by
  induction m with
  | nil => simp [Cells.keepBelow, Cells.lookup]
  | cons c m ih =>
    obtain ⟨a, b⟩ := c
    simp only [Cells.keepBelow, List.filter_cons] at ih ⊢
    by_cases ha : a < n
    · simp only [ha, decide_true, if_true, Cells.lookup, ih]
      split_ifs <;> first | rfl | omega
    · simp only [ha, decide_false, Cells.lookup]
      rw [if_neg (by simp), ih]
      split_ifs <;> first | rfl | omega

theorem Cells.mem_insert {m : List Host.Cell} {i : Nat} {v : Byte} {c : Host.Cell} (h : c ∈ Cells.insert i v m) :
    c = (i, v) ∨ c ∈ m := by
  induction m with
  | nil => simpa [Cells.insert] using h
  | cons d m ih =>
    obtain ⟨a, b⟩ := d
    simp only [Cells.insert] at h
    split_ifs at h <;> simp only [List.mem_cons] at h ⊢ <;> tauto

theorem Cells.mem_erase {m : List Host.Cell} {i : Nat} {c : Host.Cell} (h : c ∈ Cells.erase i m) : c ∈ m := by
  induction m with
  | nil => simp [Cells.erase] at h
  | cons d m ih =>
    obtain ⟨a, b⟩ := d
    simp only [Cells.erase] at h
    split_ifs at h <;> simp only [List.mem_cons] at h ⊢ <;> tauto

theorem Memory.wf_rising {m : List Host.Cell} (h : Memory.wf m = true) : Cells.rising 0 m = true := by
  simp only [Memory.wf, Bool.and_eq_true] at h
  exact h.1

/-- Read after write, and a write leaves every other index alone. -/
theorem readByte_writeByte (m : List Host.Cell) (i j : Nat) (v : Byte) (h : Memory.wf m = true) :
    readByte (writeByte m i v) j = if j = i then v else readByte m j := by
  simp only [readByte, writeByte]
  split_ifs with hv hj hj
  · subst hj
    rw [Cells.lookup_erase m 0 j j (Memory.wf_rising h), if_pos rfl, hv]
    rfl
  · simp [Cells.lookup_erase m 0 i j (Memory.wf_rising h), hj]
  · simp [Cells.lookup_insert, hj]
  · simp [Cells.lookup_insert, hj]

theorem Memory.wf_writeByte (m : List Host.Cell) (i : Nat) (v : Byte) (h : Memory.wf m = true) (hi : i < 2048) :
    Memory.wf (writeByte m i v) = true := by
  simp only [Memory.wf, Bool.and_eq_true, List.all_eq_true, writeByte] at h ⊢
  split_ifs with hv
  · exact ⟨Cells.rising_erase m 0 i h.1, fun c hc => h.2 c (Cells.mem_erase hc)⟩
  · refine ⟨Cells.rising_insert m 0 i v h.1 (by omega) hi, fun c hc => ?_⟩
    rcases Cells.mem_insert hc with rfl | hc
    · simpa using hv
    · exact h.2 c hc

theorem Memory.wf_writeBytes (m : List Host.Cell) (a : Nat) (v : List Byte) (h : Memory.wf m = true)
    (ha : a + v.length ≤ 2048) : Memory.wf (writeBytes m a v) = true := by
  induction v generalizing m a with
  | nil => exact h
  | cons b v ih =>
    simp only [List.length_cons] at ha
    exact ih (writeByte m a b) (a + 1) (Memory.wf_writeByte m a b h (by omega)) (by omega)

theorem Memory.wf_memWrite {m m' : List Host.Cell} {a : Nat} {v : List Byte} (h : Memory.wf m = true)
    (hw : memWrite m a v = some m') : Memory.wf m' = true := by
  simp only [memWrite] at hw
  split_ifs at hw with ha
  simp only [Option.some.injEq] at hw
  exact hw ▸ Memory.wf_writeBytes m a v h ha

/-- A single-byte MemWrite inside the index space is admitted. -/
theorem memWrite_one (m : List Host.Cell) (i : Nat) (v : Byte) (hi : i < 2048) :
    memWrite m i [v] = some (writeByte m i v) := by
  simp [memWrite, writeBytes, show i + 1 ≤ 2048 by omega]

/-- A MemRead inside the index space is admitted. -/
theorem memRead_eq (m : List Host.Cell) (a n : Nat) (h : a + n ≤ 2048) :
    memRead m a n = some ((List.range n).map fun k => readByte m (a + k)) := by
  simp [memRead, h]

theorem Cells.rising_range' (v : Byte) (n lo : Nat) (h : lo + n ≤ 2048) :
    Cells.rising lo ((List.range' lo n).map fun i => (i, v)) = true := by
  induction n generalizing lo with
  | zero => rfl
  | succ n ih =>
    simp only [List.range'_succ, List.map_cons, Cells.rising, Bool.and_eq_true, decide_eq_true_eq]
    exact ⟨⟨le_refl _, by omega⟩, ih (lo + 1) (by omega)⟩

theorem Memory.wf_filled (v : Byte) : Memory.wf (filled v) = true := by
  simp only [Memory.wf, filled, Bool.and_eq_true]
  split_ifs with h
  · exact ⟨rfl, rfl⟩
  · refine ⟨?_, ?_⟩
    · rw [List.range_eq_range']
      exact Cells.rising_range' v 2048 0 (by omega)
    · simpa using fun _ _ => h

theorem Cells.lookup_range' (v : Byte) (n lo i : Nat) (h : lo ≤ i) (hi : i < lo + n) :
    Cells.lookup ((List.range' lo n).map fun i => (i, v)) i = some v := by
  induction n generalizing lo with
  | zero => omega
  | succ n ih =>
    simp only [List.range'_succ, List.map_cons, Cells.lookup]
    split_ifs with h1
    · rfl
    · exact ih (lo + 1) (by omega) (by omega)

/-- Every byte of a filled framebuffer is the filling byte. -/
theorem readByte_filled (v : Byte) (i : Nat) (hi : i < 2048) : readByte (filled v) i = v := by
  simp only [readByte, filled]
  split_ifs with h
  · simp [Cells.lookup, h]
  · rw [List.range_eq_range', Cells.lookup_range' v 2048 0 i (by omega) (by omega)]
    rfl

theorem Cells.ext (m m' : List Host.Cell) (lo : Nat) (h : Cells.rising lo m = true) (h' : Cells.rising lo m' = true)
    (e : ∀ i, Cells.lookup m i = Cells.lookup m' i) : m = m' := by
  induction m generalizing m' lo with
  | nil =>
    cases m' with
    | nil => rfl
    | cons c m' => simpa [Cells.lookup] using e c.1
  | cons c m ih =>
    obtain ⟨a, b⟩ := c
    cases m' with
    | nil => simpa [Cells.lookup] using e a
    | cons c' m' =>
      obtain ⟨a', b'⟩ := c'
      simp only [Cells.rising, Bool.and_eq_true, decide_eq_true_eq] at h h'
      have haa : a = a' := by
        rcases Nat.lt_trichotomy a a' with hlt | heq | hgt
        · have := e a
          simp [Cells.lookup, Nat.ne_of_lt hlt, Cells.lookup_below m' (a' + 1) a h'.2 (by omega)] at this
        · exact heq
        · have := e a'
          simp [Cells.lookup, Nat.ne_of_lt hgt, Cells.lookup_below m (a + 1) a' h.2 (by omega)] at this
      subst haa
      have hb : b = b' := by simpa [Cells.lookup] using e a
      subst hb
      have hm : m = m' := ih m' (a + 1) h.2 h'.2 fun i => by
        by_cases hi : i = a
        · subst hi
          rw [Cells.lookup_below m (i + 1) i h.2 (by omega), Cells.lookup_below m' (i + 1) i h'.2 (by omega)]
        · simpa [Cells.lookup, hi] using e i
      rw [hm]

theorem Memory.lookup_ne_zero {m : List Host.Cell} (h : Memory.wf m = true) (i : Nat) : Cells.lookup m i ≠ some 0 := by
  simp only [Memory.wf, Bool.and_eq_true, List.all_eq_true] at h
  have h2 := h.2
  clear h
  induction m with
  | nil => simp [Cells.lookup]
  | cons c m ih =>
    obtain ⟨a, b⟩ := c
    simp only [Cells.lookup]
    split_ifs with hi
    · simpa using h2 (a, b) (by simp)
    · exact ih fun c hc => h2 c (by simp [hc])

/-- Two canonical framebuffers whose bytes are equal are equal. -/
theorem Memory.ext {m m' : List Host.Cell} (h : Memory.wf m = true) (h' : Memory.wf m' = true)
    (e : ∀ i, readByte m i = readByte m' i) : m = m' := by
  refine Cells.ext m m' 0 (Memory.wf_rising h) (Memory.wf_rising h') fun i => ?_
  have ei := e i
  have n1 := Memory.lookup_ne_zero h i
  have n2 := Memory.lookup_ne_zero h' i
  simp only [readByte] at ei
  cases h1 : Cells.lookup m i <;> cases h2 : Cells.lookup m' i <;> simp_all

/-- An index outside 0 to 2047 reads as `0x00`. -/
theorem Cells.lookup_beyond (m : List Host.Cell) (lo i : Nat) (h : Cells.rising lo m = true) (hi : 2048 ≤ i) :
    Cells.lookup m i = none := by
  induction m generalizing lo with
  | nil => rfl
  | cons c m ih =>
    obtain ⟨a, b⟩ := c
    simp only [Cells.rising, Bool.and_eq_true, decide_eq_true_eq] at h
    simp only [Cells.lookup, if_neg (show i ≠ a by omega)]
    exact ih (a + 1) h.2

end Sys2Proof.Machine
end

