-- ==== Sys2Proof/Laws/State.lean ====
section
/-! SUPPORT. One lemma per field per named update of the state, true by rfl. -/

namespace Sys2Proof.Machine

variable (s : State)

@[simp] theorem State.setFb_fb (m : List Host.Cell) : (s.setFb m).fb = m := rfl
@[simp] theorem State.setFb_cfg (m : List Host.Cell) : (s.setFb m).cfg = s.cfg := rfl
@[simp] theorem State.setFb_addr (m : List Host.Cell) : (s.setFb m).addr = s.addr := rfl
@[simp] theorem State.setFb_busPresent (m : List Host.Cell) : (s.setFb m).busPresent = s.busPresent := rfl
@[simp] theorem State.setFb_bstate (m : List Host.Cell) : (s.setFb m).bstate = s.bstate := rfl
@[simp] theorem State.setFb_seq (m : List Host.Cell) : (s.setFb m).seq = s.seq := rfl
@[simp] theorem State.setFb_result (m : List Host.Cell) : (s.setFb m).result = s.result := rfl
@[simp] theorem State.setFb_stage (m : List Host.Cell) : (s.setFb m).stage = s.stage := rfl
@[simp] theorem State.setFb_stageLen (m : List Host.Cell) : (s.setFb m).stageLen = s.stageLen := rfl
@[simp] theorem State.setFb_wire (m : List Host.Cell) : (s.setFb m).wire = s.wire := rfl
@[simp] theorem State.setFb_wireBase (m : List Host.Cell) : (s.setFb m).wireBase = s.wireBase := rfl
@[simp] theorem State.setFb_ctl (m : List Host.Cell) : (s.setFb m).ctl = s.ctl := rfl
@[simp] theorem State.setFb_params (m : List Host.Cell) : (s.setFb m).params = s.params := rfl
@[simp] theorem State.setFb_observed (m : List Host.Cell) : (s.setFb m).observed = s.observed := rfl
@[simp] theorem State.setFb_ret (m : List Host.Cell) : (s.setFb m).ret = s.ret := rfl
@[simp] theorem State.setFb_answers (m : List Host.Cell) : (s.setFb m).answers = s.answers := rfl
@[simp] theorem State.setFb_draws (m : List Host.Cell) : (s.setFb m).draws = s.draws := rfl
@[simp] theorem State.setFb_port (m : List Host.Cell) : (s.setFb m).port = s.port := rfl

@[simp] theorem State.returnBytes_fb (b : List Byte) : (s.returnBytes b).fb = s.fb := rfl
@[simp] theorem State.returnBytes_cfg (b : List Byte) : (s.returnBytes b).cfg = s.cfg := rfl
@[simp] theorem State.returnBytes_addr (b : List Byte) : (s.returnBytes b).addr = s.addr := rfl
@[simp] theorem State.returnBytes_busPresent (b : List Byte) : (s.returnBytes b).busPresent = s.busPresent := rfl
@[simp] theorem State.returnBytes_bstate (b : List Byte) : (s.returnBytes b).bstate = s.bstate := rfl
@[simp] theorem State.returnBytes_seq (b : List Byte) : (s.returnBytes b).seq = s.seq := rfl
@[simp] theorem State.returnBytes_result (b : List Byte) : (s.returnBytes b).result = s.result := rfl
@[simp] theorem State.returnBytes_stage (b : List Byte) : (s.returnBytes b).stage = s.stage := rfl
@[simp] theorem State.returnBytes_stageLen (b : List Byte) : (s.returnBytes b).stageLen = s.stageLen := rfl
@[simp] theorem State.returnBytes_wire (b : List Byte) : (s.returnBytes b).wire = s.wire := rfl
@[simp] theorem State.returnBytes_wireBase (b : List Byte) : (s.returnBytes b).wireBase = s.wireBase := rfl
@[simp] theorem State.returnBytes_ctl (b : List Byte) : (s.returnBytes b).ctl = s.ctl := rfl
@[simp] theorem State.returnBytes_params (b : List Byte) : (s.returnBytes b).params = s.params := rfl
@[simp] theorem State.returnBytes_observed (b : List Byte) : (s.returnBytes b).observed = s.observed := rfl
@[simp] theorem State.returnBytes_ret (b : List Byte) : (s.returnBytes b).ret = .bytes b := rfl
@[simp] theorem State.returnBytes_answers (b : List Byte) : (s.returnBytes b).answers = s.answers := rfl
@[simp] theorem State.returnBytes_draws (b : List Byte) : (s.returnBytes b).draws = s.draws := rfl
@[simp] theorem State.returnBytes_port (b : List Byte) : (s.returnBytes b).port = s.port := rfl

@[simp] theorem State.setPort_fb (q : List Call) : (s.setPort q).fb = s.fb := rfl
@[simp] theorem State.setPort_cfg (q : List Call) : (s.setPort q).cfg = s.cfg := rfl
@[simp] theorem State.setPort_addr (q : List Call) : (s.setPort q).addr = s.addr := rfl
@[simp] theorem State.setPort_busPresent (q : List Call) : (s.setPort q).busPresent = s.busPresent := rfl
@[simp] theorem State.setPort_bstate (q : List Call) : (s.setPort q).bstate = s.bstate := rfl
@[simp] theorem State.setPort_seq (q : List Call) : (s.setPort q).seq = s.seq := rfl
@[simp] theorem State.setPort_result (q : List Call) : (s.setPort q).result = s.result := rfl
@[simp] theorem State.setPort_stage (q : List Call) : (s.setPort q).stage = s.stage := rfl
@[simp] theorem State.setPort_stageLen (q : List Call) : (s.setPort q).stageLen = s.stageLen := rfl
@[simp] theorem State.setPort_wire (q : List Call) : (s.setPort q).wire = s.wire := rfl
@[simp] theorem State.setPort_wireBase (q : List Call) : (s.setPort q).wireBase = s.wireBase := rfl
@[simp] theorem State.setPort_ctl (q : List Call) : (s.setPort q).ctl = s.ctl := rfl
@[simp] theorem State.setPort_params (q : List Call) : (s.setPort q).params = s.params := rfl
@[simp] theorem State.setPort_observed (q : List Call) : (s.setPort q).observed = s.observed := rfl
@[simp] theorem State.setPort_ret (q : List Call) : (s.setPort q).ret = s.ret := rfl
@[simp] theorem State.setPort_answers (q : List Call) : (s.setPort q).answers = s.answers := rfl
@[simp] theorem State.setPort_draws (q : List Call) : (s.setPort q).draws = s.draws := rfl
@[simp] theorem State.setPort_port (q : List Call) : (s.setPort q).port = q := rfl

@[simp] theorem State.accept_fb (q : Seq) : (s.accept q).fb = s.fb := rfl
@[simp] theorem State.accept_cfg (q : Seq) : (s.accept q).cfg = s.cfg := rfl
@[simp] theorem State.accept_addr (q : Seq) : (s.accept q).addr = s.addr := rfl
@[simp] theorem State.accept_busPresent (q : Seq) : (s.accept q).busPresent = s.busPresent := rfl
@[simp] theorem State.accept_bstate (q : Seq) : (s.accept q).bstate = s.bstate := rfl
@[simp] theorem State.accept_seq (q : Seq) : (s.accept q).seq = q := rfl
@[simp] theorem State.accept_result (q : Seq) : (s.accept q).result = .none := rfl
@[simp] theorem State.accept_stage (q : Seq) : (s.accept q).stage = s.stage := rfl
@[simp] theorem State.accept_stageLen (q : Seq) : (s.accept q).stageLen = s.stageLen := rfl
@[simp] theorem State.accept_wire (q : Seq) : (s.accept q).wire = s.wire := rfl
@[simp] theorem State.accept_wireBase (q : Seq) : (s.accept q).wireBase = s.wireBase := rfl
@[simp] theorem State.accept_ctl (q : Seq) : (s.accept q).ctl = s.ctl := rfl
@[simp] theorem State.accept_params (q : Seq) : (s.accept q).params = s.params := rfl
@[simp] theorem State.accept_observed (q : Seq) : (s.accept q).observed = s.observed := rfl
@[simp] theorem State.accept_ret (q : Seq) : (s.accept q).ret = s.ret := rfl
@[simp] theorem State.accept_answers (q : Seq) : (s.accept q).answers = s.answers := rfl
@[simp] theorem State.accept_draws (q : Seq) : (s.accept q).draws = s.draws := rfl
@[simp] theorem State.accept_port (q : Seq) : (s.accept q).port = s.port := rfl

@[simp] theorem State.stageFrame_fb (f : List Byte) : (s.stageFrame f).fb = s.fb := rfl
@[simp] theorem State.stageFrame_cfg (f : List Byte) : (s.stageFrame f).cfg = s.cfg := rfl
@[simp] theorem State.stageFrame_addr (f : List Byte) : (s.stageFrame f).addr = s.addr := rfl
@[simp] theorem State.stageFrame_busPresent (f : List Byte) : (s.stageFrame f).busPresent = s.busPresent := rfl
@[simp] theorem State.stageFrame_bstate (f : List Byte) : (s.stageFrame f).bstate = s.bstate := rfl
@[simp] theorem State.stageFrame_seq (f : List Byte) : (s.stageFrame f).seq = s.seq := rfl
@[simp] theorem State.stageFrame_result (f : List Byte) : (s.stageFrame f).result = s.result := rfl
@[simp] theorem State.stageFrame_stage (f : List Byte) : (s.stageFrame f).stage = f ++ s.stage.drop f.length := rfl
@[simp] theorem State.stageFrame_stageLen (f : List Byte) : (s.stageFrame f).stageLen = f.length := rfl
@[simp] theorem State.stageFrame_wire (f : List Byte) : (s.stageFrame f).wire = s.wire := rfl
@[simp] theorem State.stageFrame_wireBase (f : List Byte) : (s.stageFrame f).wireBase = s.wireBase := rfl
@[simp] theorem State.stageFrame_ctl (f : List Byte) : (s.stageFrame f).ctl = s.ctl := rfl
@[simp] theorem State.stageFrame_params (f : List Byte) : (s.stageFrame f).params = s.params := rfl
@[simp] theorem State.stageFrame_observed (f : List Byte) : (s.stageFrame f).observed = s.observed := rfl
@[simp] theorem State.stageFrame_ret (f : List Byte) : (s.stageFrame f).ret = s.ret := rfl
@[simp] theorem State.stageFrame_answers (f : List Byte) : (s.stageFrame f).answers = s.answers := rfl
@[simp] theorem State.stageFrame_draws (f : List Byte) : (s.stageFrame f).draws = s.draws := rfl
@[simp] theorem State.stageFrame_port (f : List Byte) : (s.stageFrame f).port = s.port := rfl

@[simp] theorem State.completeFlush_fb : (s.completeFlush).fb = s.fb := rfl
@[simp] theorem State.completeFlush_cfg : (s.completeFlush).cfg = s.cfg := rfl
@[simp] theorem State.completeFlush_addr : (s.completeFlush).addr = s.addr := rfl
@[simp] theorem State.completeFlush_busPresent : (s.completeFlush).busPresent = s.busPresent := rfl
@[simp] theorem State.completeFlush_bstate : (s.completeFlush).bstate = s.bstate := rfl
@[simp] theorem State.completeFlush_seq : (s.completeFlush).seq = .idle := rfl
@[simp] theorem State.completeFlush_result : (s.completeFlush).result = .ok := rfl
@[simp] theorem State.completeFlush_stage : (s.completeFlush).stage = s.stage := rfl
@[simp] theorem State.completeFlush_stageLen : (s.completeFlush).stageLen = s.stageLen := rfl
@[simp] theorem State.completeFlush_wire : (s.completeFlush).wire = s.wire := rfl
@[simp] theorem State.completeFlush_wireBase : (s.completeFlush).wireBase = s.wireBase := rfl
@[simp] theorem State.completeFlush_ctl : (s.completeFlush).ctl = s.ctl.settle := rfl
@[simp] theorem State.completeFlush_params : (s.completeFlush).params = s.params := rfl
@[simp] theorem State.completeFlush_observed : (s.completeFlush).observed = s.observed := rfl
@[simp] theorem State.completeFlush_ret : (s.completeFlush).ret = s.ret := rfl
@[simp] theorem State.completeFlush_answers : (s.completeFlush).answers = s.answers := rfl
@[simp] theorem State.completeFlush_draws : (s.completeFlush).draws = s.draws := rfl
@[simp] theorem State.completeFlush_port : (s.completeFlush).port = s.port := rfl

@[simp] theorem State.raiseError_fb (e : Error) : (s.raiseError e).fb = s.fb := rfl
@[simp] theorem State.raiseError_cfg (e : Error) : (s.raiseError e).cfg = s.cfg := rfl
@[simp] theorem State.raiseError_addr (e : Error) : (s.raiseError e).addr = s.addr := rfl
@[simp] theorem State.raiseError_busPresent (e : Error) : (s.raiseError e).busPresent = s.busPresent := rfl
@[simp] theorem State.raiseError_bstate (e : Error) : (s.raiseError e).bstate = if s.seq.isBuildWalk then .failed .initializationFailed else s.bstate := rfl
@[simp] theorem State.raiseError_seq (e : Error) : (s.raiseError e).seq = .idle := rfl
@[simp] theorem State.raiseError_result (e : Error) : (s.raiseError e).result = .err e := rfl
@[simp] theorem State.raiseError_stage (e : Error) : (s.raiseError e).stage = s.stage := rfl
@[simp] theorem State.raiseError_stageLen (e : Error) : (s.raiseError e).stageLen = s.stageLen := rfl
@[simp] theorem State.raiseError_wire (e : Error) : (s.raiseError e).wire = s.wire := rfl
@[simp] theorem State.raiseError_wireBase (e : Error) : (s.raiseError e).wireBase = s.wireBase := rfl
@[simp] theorem State.raiseError_ctl (e : Error) : (s.raiseError e).ctl = s.ctl.afterFailure s.seq := rfl
@[simp] theorem State.raiseError_params (e : Error) : (s.raiseError e).params = s.params := rfl
@[simp] theorem State.raiseError_observed (e : Error) : (s.raiseError e).observed = s.observed := rfl
@[simp] theorem State.raiseError_ret (e : Error) : (s.raiseError e).ret = s.ret := rfl
@[simp] theorem State.raiseError_answers (e : Error) : (s.raiseError e).answers = s.answers := rfl
@[simp] theorem State.raiseError_draws (e : Error) : (s.raiseError e).draws = s.draws := rfl
@[simp] theorem State.raiseError_port (e : Error) : (s.raiseError e).port = s.port := rfl

@[simp] theorem State.dropReset_fb : (s.dropReset).fb = [] := rfl
@[simp] theorem State.dropReset_cfg : (s.dropReset).cfg = s.cfg := rfl
@[simp] theorem State.dropReset_addr : (s.dropReset).addr = Config.addrDefault := rfl
@[simp] theorem State.dropReset_busPresent : (s.dropReset).busPresent = false := rfl
@[simp] theorem State.dropReset_bstate : (s.dropReset).bstate = .unconfigured := rfl
@[simp] theorem State.dropReset_seq : (s.dropReset).seq = .idle := rfl
@[simp] theorem State.dropReset_result : (s.dropReset).result = .none := rfl
@[simp] theorem State.dropReset_stage : (s.dropReset).stage = [] := rfl
@[simp] theorem State.dropReset_stageLen : (s.dropReset).stageLen = 0 := rfl
@[simp] theorem State.dropReset_wire : (s.dropReset).wire = s.wire := rfl
@[simp] theorem State.dropReset_wireBase : (s.dropReset).wireBase = s.wire.length := rfl
@[simp] theorem State.dropReset_ctl : (s.dropReset).ctl = s.ctl.afterCancel s.seq := rfl
@[simp] theorem State.dropReset_params : (s.dropReset).params = s.params := rfl
@[simp] theorem State.dropReset_observed : (s.dropReset).observed = s.observed := rfl
@[simp] theorem State.dropReset_ret : (s.dropReset).ret = .nothing := rfl
@[simp] theorem State.dropReset_answers : (s.dropReset).answers = s.answers := rfl
@[simp] theorem State.dropReset_draws : (s.dropReset).draws = s.draws := rfl
@[simp] theorem State.dropReset_port : (s.dropReset).port = s.port := rfl

@[simp] theorem State.completeInit_fb (c : Ctx) : (s.completeInit c).fb = s.fb := rfl
@[simp] theorem State.completeInit_cfg (c : Ctx) : (s.completeInit c).cfg = s.cfg := rfl
@[simp] theorem State.completeInit_addr (c : Ctx) : (s.completeInit c).addr = s.addr := rfl
@[simp] theorem State.completeInit_busPresent (c : Ctx) : (s.completeInit c).busPresent = s.busPresent := rfl
@[simp] theorem State.completeInit_stage (c : Ctx) : (s.completeInit c).stage = s.stage := rfl
@[simp] theorem State.completeInit_stageLen (c : Ctx) : (s.completeInit c).stageLen = s.stageLen := rfl
@[simp] theorem State.completeInit_wire (c : Ctx) : (s.completeInit c).wire = s.wire := rfl
@[simp] theorem State.completeInit_wireBase (c : Ctx) : (s.completeInit c).wireBase = s.wireBase := rfl
@[simp] theorem State.completeInit_ctl (c : Ctx) : (s.completeInit c).ctl = s.ctl := rfl
@[simp] theorem State.completeInit_params (c : Ctx) : (s.completeInit c).params = s.params := rfl
@[simp] theorem State.completeInit_observed (c : Ctx) : (s.completeInit c).observed = s.observed := rfl
@[simp] theorem State.completeInit_ret (c : Ctx) : (s.completeInit c).ret = s.ret := rfl
@[simp] theorem State.completeInit_answers (c : Ctx) : (s.completeInit c).answers = s.answers := rfl
@[simp] theorem State.completeInit_draws (c : Ctx) : (s.completeInit c).draws = s.draws := rfl
@[simp] theorem State.completeInit_port (c : Ctx) : (s.completeInit c).port = s.port := rfl
@[simp] theorem State.completeInit_seq (c : Ctx) : (s.completeInit c).seq = .idle := rfl
@[simp] theorem State.completeInit_result (c : Ctx) : (s.completeInit c).result = .ok := rfl
@[simp] theorem State.completeInit_bstate_build : (s.completeInit .build).bstate = .built := rfl
@[simp] theorem State.completeInit_bstate_host : (s.completeInit .host).bstate = s.bstate := rfl

@[simp] theorem State.notify_fb (c : ObserverCall) : (s.notify c).fb = s.fb := by
  simp only [State.notify]; split <;> rfl
@[simp] theorem State.notify_cfg (c : ObserverCall) : (s.notify c).cfg = s.cfg := by
  simp only [State.notify]; split <;> rfl
@[simp] theorem State.notify_addr (c : ObserverCall) : (s.notify c).addr = s.addr := by
  simp only [State.notify]; split <;> rfl
@[simp] theorem State.notify_busPresent (c : ObserverCall) : (s.notify c).busPresent = s.busPresent := by
  simp only [State.notify]; split <;> rfl
@[simp] theorem State.notify_bstate (c : ObserverCall) : (s.notify c).bstate = s.bstate := by
  simp only [State.notify]; split <;> rfl
@[simp] theorem State.notify_seq (c : ObserverCall) : (s.notify c).seq = s.seq := by
  simp only [State.notify]; split <;> rfl
@[simp] theorem State.notify_result (c : ObserverCall) : (s.notify c).result = s.result := by
  simp only [State.notify]; split <;> rfl
@[simp] theorem State.notify_stage (c : ObserverCall) : (s.notify c).stage = s.stage := by
  simp only [State.notify]; split <;> rfl
@[simp] theorem State.notify_stageLen (c : ObserverCall) : (s.notify c).stageLen = s.stageLen := by
  simp only [State.notify]; split <;> rfl
@[simp] theorem State.notify_wire (c : ObserverCall) : (s.notify c).wire = s.wire := by
  simp only [State.notify]; split <;> rfl
@[simp] theorem State.notify_wireBase (c : ObserverCall) : (s.notify c).wireBase = s.wireBase := by
  simp only [State.notify]; split <;> rfl
@[simp] theorem State.notify_ctl (c : ObserverCall) : (s.notify c).ctl = s.ctl := by
  simp only [State.notify]; split <;> rfl
@[simp] theorem State.notify_params (c : ObserverCall) : (s.notify c).params = s.params := by
  simp only [State.notify]; split <;> rfl
@[simp] theorem State.notify_ret (c : ObserverCall) : (s.notify c).ret = s.ret := by
  simp only [State.notify]; split <;> rfl
@[simp] theorem State.notify_answers (c : ObserverCall) : (s.notify c).answers = s.answers := by
  simp only [State.notify]; split <;> rfl
@[simp] theorem State.notify_draws (c : ObserverCall) : (s.notify c).draws = s.draws := by
  simp only [State.notify]; split <;> rfl
@[simp] theorem State.notify_port (c : ObserverCall) : (s.notify c).port = s.port := by
  simp only [State.notify]; split <;> rfl

@[simp] theorem State.takeAnswer_fb : s.takeAnswer.fb = s.fb := by
  simp only [State.takeAnswer]; split <;> rfl
@[simp] theorem State.takeAnswer_cfg : s.takeAnswer.cfg = s.cfg := by
  simp only [State.takeAnswer]; split <;> rfl
@[simp] theorem State.takeAnswer_addr : s.takeAnswer.addr = s.addr := by
  simp only [State.takeAnswer]; split <;> rfl
@[simp] theorem State.takeAnswer_busPresent : s.takeAnswer.busPresent = s.busPresent := by
  simp only [State.takeAnswer]; split <;> rfl
@[simp] theorem State.takeAnswer_bstate : s.takeAnswer.bstate = s.bstate := by
  simp only [State.takeAnswer]; split <;> rfl
@[simp] theorem State.takeAnswer_seq : s.takeAnswer.seq = s.seq := by
  simp only [State.takeAnswer]; split <;> rfl
@[simp] theorem State.takeAnswer_result : s.takeAnswer.result = s.result := by
  simp only [State.takeAnswer]; split <;> rfl
@[simp] theorem State.takeAnswer_stage : s.takeAnswer.stage = s.stage := by
  simp only [State.takeAnswer]; split <;> rfl
@[simp] theorem State.takeAnswer_stageLen : s.takeAnswer.stageLen = s.stageLen := by
  simp only [State.takeAnswer]; split <;> rfl
@[simp] theorem State.takeAnswer_wire : s.takeAnswer.wire = s.wire := by
  simp only [State.takeAnswer]; split <;> rfl
@[simp] theorem State.takeAnswer_wireBase : s.takeAnswer.wireBase = s.wireBase := by
  simp only [State.takeAnswer]; split <;> rfl
@[simp] theorem State.takeAnswer_ctl : s.takeAnswer.ctl = s.ctl := by
  simp only [State.takeAnswer]; split <;> rfl
@[simp] theorem State.takeAnswer_params : s.takeAnswer.params = s.params := by
  simp only [State.takeAnswer]; split <;> rfl
@[simp] theorem State.takeAnswer_observed : s.takeAnswer.observed = s.observed := by
  simp only [State.takeAnswer]; split <;> rfl
@[simp] theorem State.takeAnswer_ret : s.takeAnswer.ret = s.ret := by
  simp only [State.takeAnswer]; split <;> rfl
@[simp] theorem State.takeAnswer_port : s.takeAnswer.port = s.port := by
  simp only [State.takeAnswer]; split <;> rfl

@[simp] theorem State.transportWrite_fb (fr : List Byte) : (s.transportWrite fr).fb = s.fb := by
  simp [State.transportWrite]
@[simp] theorem State.transportWrite_cfg (fr : List Byte) : (s.transportWrite fr).cfg = s.cfg := by
  simp [State.transportWrite]
@[simp] theorem State.transportWrite_addr (fr : List Byte) : (s.transportWrite fr).addr = s.addr := by
  simp [State.transportWrite]
@[simp] theorem State.transportWrite_busPresent (fr : List Byte) : (s.transportWrite fr).busPresent = s.busPresent := by
  simp [State.transportWrite]
@[simp] theorem State.transportWrite_bstate (fr : List Byte) : (s.transportWrite fr).bstate = s.bstate := by
  simp [State.transportWrite]
@[simp] theorem State.transportWrite_seq (fr : List Byte) : (s.transportWrite fr).seq = s.seq := by
  simp [State.transportWrite]
@[simp] theorem State.transportWrite_result (fr : List Byte) : (s.transportWrite fr).result = s.result := by
  simp [State.transportWrite]
@[simp] theorem State.transportWrite_stage (fr : List Byte) : (s.transportWrite fr).stage = s.stage := by
  simp [State.transportWrite]
@[simp] theorem State.transportWrite_stageLen (fr : List Byte) : (s.transportWrite fr).stageLen = s.stageLen := by
  simp [State.transportWrite]
@[simp] theorem State.transportWrite_wireBase (fr : List Byte) : (s.transportWrite fr).wireBase = s.wireBase := by
  simp [State.transportWrite]
@[simp] theorem State.transportWrite_params (fr : List Byte) : (s.transportWrite fr).params = s.params := by
  simp [State.transportWrite]
@[simp] theorem State.transportWrite_observed (fr : List Byte) : (s.transportWrite fr).observed = s.observed := by
  simp [State.transportWrite]
@[simp] theorem State.transportWrite_ret (fr : List Byte) : (s.transportWrite fr).ret = s.ret := by
  simp [State.transportWrite]
@[simp] theorem State.transportWrite_port (fr : List Byte) : (s.transportWrite fr).port = s.port := by
  simp [State.transportWrite]

@[simp] theorem State.transportWrite_wire (fr : List Byte) :
    (s.transportWrite fr).wire = s.wire ++ [{ addr := s.addr, bytes := fr, answer := s.nextAnswer }] := rfl
@[simp] theorem State.notify_nextAnswer (c : ObserverCall) : (s.notify c).nextAnswer = s.nextAnswer := by
  simp [State.nextAnswer]
@[simp] theorem State.stageFrame_nextAnswer (fr : List Byte) : (s.stageFrame fr).nextAnswer = s.nextAnswer := rfl
@[simp] theorem State.setPort_busy (q : List Call) : (s.setPort q).busy = s.busy := rfl

/-! What sending a frame changes and what it leaves. -/

@[simp] theorem State.sendFrame_fb (fr : List Byte) : (s.sendFrame fr).fb = s.fb := by simp [State.sendFrame]
@[simp] theorem State.sendFrame_cfg (fr : List Byte) : (s.sendFrame fr).cfg = s.cfg := by simp [State.sendFrame]
@[simp] theorem State.sendFrame_addr (fr : List Byte) : (s.sendFrame fr).addr = s.addr := by simp [State.sendFrame]
@[simp] theorem State.sendFrame_busPresent (fr : List Byte) : (s.sendFrame fr).busPresent = s.busPresent := by simp [State.sendFrame]
@[simp] theorem State.sendFrame_bstate (fr : List Byte) : (s.sendFrame fr).bstate = s.bstate := by simp [State.sendFrame]
@[simp] theorem State.sendFrame_seq (fr : List Byte) : (s.sendFrame fr).seq = s.seq := by simp [State.sendFrame]
@[simp] theorem State.sendFrame_result (fr : List Byte) : (s.sendFrame fr).result = s.result := by simp [State.sendFrame]
@[simp] theorem State.sendFrame_wireBase (fr : List Byte) : (s.sendFrame fr).wireBase = s.wireBase := by simp [State.sendFrame]
@[simp] theorem State.sendFrame_params (fr : List Byte) : (s.sendFrame fr).params = s.params := by simp [State.sendFrame]
@[simp] theorem State.sendFrame_ret (fr : List Byte) : (s.sendFrame fr).ret = s.ret := by simp [State.sendFrame]
@[simp] theorem State.sendFrame_port (fr : List Byte) : (s.sendFrame fr).port = s.port := by simp [State.sendFrame]

@[simp] theorem State.sendFrame_wire (fr : List Byte) :
    (s.sendFrame fr).wire = s.wire ++ [{ addr := s.addr, bytes := fr, answer := s.nextAnswer }] := by
  simp [State.sendFrame]
@[simp] theorem State.sendFrame_stage (fr : List Byte) :
    (s.sendFrame fr).stage = fr ++ s.stage.drop fr.length := by
  simp [State.sendFrame]
@[simp] theorem State.sendFrame_stageLen (fr : List Byte) : (s.sendFrame fr).stageLen = fr.length := by
  simp [State.sendFrame]
theorem State.sendFrame_ctl (fr : List Byte) :
    (s.sendFrame fr).ctl = match s.nextAnswer with
      | .ok => s.ctl.receive fr
      | .err _ => s.ctl := by
  cases h : s.nextAnswer <;> simp [State.sendFrame, State.transportWrite, h]

@[simp] theorem State.sendFrame_answers (fr : List Byte) : (s.sendFrame fr).answers = s.takeAnswer.answers := by
  have e : ∀ u v : State, u.answers = v.answers → u.takeAnswer.answers = v.takeAnswer.answers := by
    intro u v h
    simp only [State.takeAnswer, h]
    split <;> rfl
  simp only [State.sendFrame, State.notify_answers]
  exact e _ _ (by simp)

theorem State.nextAnswer_cons {a : Answer} {rest : List Answer} (h : s.answers = a :: rest) : s.nextAnswer = a := by
  simp [State.nextAnswer, h]
theorem State.takeAnswer_cons {a : Answer} {rest : List Answer} (h : s.answers = a :: rest) :
    s.takeAnswer.answers = rest := by
  simp [State.takeAnswer, h]

theorem State.notify_observed (c : ObserverCall) :
    (s.notify c).observed = if s.params.observer then s.observed ++ [c] else s.observed := by
  simp only [State.notify]
  split <;> rfl
theorem State.sendFrame_observed (fr : List Byte) :
    (s.sendFrame fr).observed
      = if s.params.observer then s.observed ++ [.onCommand fr, .onTransportResult s.nextAnswer] else s.observed := by
  cases h : s.params.observer <;> simp [State.sendFrame, State.notify_observed, h]

end Sys2Proof.Machine
end

