-- ==== Sys2Proof/Laws/Ops.lean ====
section
/-! SUPPORT. One lemma for each shared operation that says what it can do: the admission conditions, `emit`, SPLIT, MemRead in the
DATA phase, and the controller's updates. -/

namespace Sys2Proof.Machine

/-! Admission. -/

theorem State.busy_eq_false {s : State} : s.busy = false ↔ s.seq = .idle := by
  cases h : s.seq <;> simp [State.busy, h]

theorem State.busy_eq_true {s : State} : s.busy = true ↔ s.seq ≠ .idle := by
  cases h : s.seq <;> simp [State.busy, h]

theorem State.builderIdle_iff {s : State} :
    s.builderIdle = true ↔ s.seq = .idle ∧ (s.bstate = .unconfigured ∨ s.bstate = .configured) := by
  simp [State.builderIdle, State.busy_eq_false]

theorem State.sessionIdle_iff {s : State} : s.sessionIdle = true ↔ s.seq = .idle ∧ s.bstate = .built := by
  simp [State.sessionIdle, State.busy_eq_false]

theorem State.cancellable_iff {s : State} :
    s.cancellable = true ↔ s.seq ≠ .idle ∧ s.params.binding = .nonblocking := by
  simp [State.cancellable, State.busy_eq_true]

theorem Seq.isBuildWalk_iff {q : Seq} : q.isBuildWalk = true ↔ ∃ k, q = .init .build k := by
  rcases q with _ | ⟨ctx, k⟩ | ⟨p, ph⟩
  · simp [Seq.isBuildWalk]
  · cases ctx <;> simp [Seq.isBuildWalk]
  · simp [Seq.isBuildWalk]

/-! `emit` and SPLIT. -/

theorem emit_overflow {ctrl : Byte} {payload : List Byte} {s : State} (h : s.params.stageCap < 1 + payload.length) :
    emit ctrl payload s = (s, .err (.payloadOverflow (1 + payload.length))) := by
  simp [emit, h]

theorem emit_fits {ctrl : Byte} {payload : List Byte} {s : State} (h : 1 + payload.length ≤ s.params.stageCap) :
    emit ctrl payload s = (s.sendFrame (ctrl :: payload), answerEnd s.nextAnswer) := by
  simp [emit, Nat.not_lt.mpr h]

/-- All that `emit` can do: leave everything as it was and report the overflow, or send the frame. -/
theorem emit_cases (ctrl : Byte) (payload : List Byte) (s : State) :
    (s.params.stageCap < 1 + payload.length
        ∧ emit ctrl payload s = (s, .err (.payloadOverflow (1 + payload.length))))
      ∨ (1 + payload.length ≤ s.params.stageCap
        ∧ emit ctrl payload s = (s.sendFrame (ctrl :: payload), answerEnd s.nextAnswer)) := by
  rcases Nat.lt_or_ge s.params.stageCap (1 + payload.length) with h | h
  · exact .inl ⟨h, emit_overflow h⟩
  · exact .inr ⟨h, emit_fits h⟩

@[simp] theorem answerEnd_eq_ok {a : Answer} : answerEnd a = .ok ↔ a = .ok := by
  cases a <;> simp [answerEnd]

/-- What every frame of a SPLIT keeps, SPLIT keeps: each of its frames has 1 to `TMAX - 1` payload bytes. -/
theorem splitFrom_keeps {P : State → Prop} {ctrl : Byte} {tmax : Nat} (ht : 2 ≤ tmax)
    (hp : ∀ s, P s → s.params.tmax = tmax)
    (h : ∀ s payload, P s → 1 ≤ payload.length → payload.length + 1 ≤ tmax → P (emit ctrl payload s).1)
    (fuel : Nat) (data : List Byte) (s : State) (hs : P s) : P (splitFrom ctrl fuel data s).1 := by
  induction fuel generalizing data s with
  | zero => exact hs
  | succ fuel ih =>
    cases data with
    | nil => exact hs
    | cons b rest =>
      have hl : ((b :: rest).take (s.params.tmax - 1)).length = min (s.params.tmax - 1) (rest.length + 1) := by simp
      have hk := h s ((b :: rest).take (s.params.tmax - 1)) hs
        (by rw [hl, hp s hs]; omega) (by rw [hl, hp s hs]; omega)
      simp only [splitFrom]
      split
      · next t he => exact ih _ t (by rw [he] at hk; exact hk)
      · next t c he => rw [he] at hk; exact hk

/-- What every frame keeps, whatever its length, SPLIT keeps. -/
theorem splitFrom_keeps' {P : State → Prop} {ctrl : Byte} (h : ∀ s payload, P s → P (emit ctrl payload s).1)
    (fuel : Nat) (data : List Byte) (s : State) (hs : P s) : P (splitFrom ctrl fuel data s).1 := by
  induction fuel generalizing data s with
  | zero => exact hs
  | succ fuel ih =>
    cases data with
    | nil => exact hs
    | cons b rest =>
      have hk := h s ((b :: rest).take (s.params.tmax - 1)) hs
      simp only [splitFrom]
      split
      · next t he => exact ih _ t (by rw [he] at hk; exact hk)
      · next t c he => rw [he] at hk; exact hk

/-! The frames of FLUSH. -/

/-- The DATA phase's MemRead is admitted at every position (R216). -/
theorem flushFrame_data (s : State) (p : Fin 16) (o : Fin 128) :
    flushFrame s p (.data o)
      = some (ctrlData, fbBytes s.fb (128 * p.val + o.val) (min (s.params.tmax - 1) (128 - o.val))) := by
  have hb : 128 * p.val + o.val + min (s.params.tmax - 1) (128 - o.val) ≤ 2048 := by omega
  simp [flushFrame, memRead_eq _ _ _ hb, fbBytes]

@[simp] theorem fbBytes_length (m : List Host.Cell) (a n : Nat) : (fbBytes m a n).length = n := by simp [fbBytes]

/-- Every position of FLUSH has a frame. -/
theorem flushFrame_isSome (s : State) (p : Fin 16) (ph : Phase) : ∃ f, flushFrame s p ph = some f := by
  cases ph with
  | page => exact ⟨_, rfl⟩
  | colLo => exact ⟨_, rfl⟩
  | colHi => exact ⟨_, rfl⟩
  | data o => exact ⟨_, flushFrame_data s p o⟩

/-- The commands of the initialise table are 1 or 2 bytes, none of them empty (R191). -/
theorem initCmd_length (cfg : Straps) (k : Fin 15) : 1 ≤ (initCmd cfg k).length ∧ (initCmd cfg k).length ≤ 2 := by
  have hs : (commandBytes (segmentRemap cfg)).length = 1 := by simp only [segmentRemap]; split <;> rfl
  have hc : (commandBytes (comScan cfg)).length = 1 := by simp only [comScan]; split <;> rfl
  fin_cases k
  all_goals first
    | exact ⟨Nat.le_of_ble_eq_true rfl, Nat.le_of_ble_eq_true rfl⟩
    | exact ⟨hs.ge, hs.le.trans (by omega)⟩
    | exact ⟨hc.ge, hc.le.trans (by omega)⟩

/-! The controller. -/

theorem Controller.rising_store (c : Controller) (b : Byte) (h : Cells.rising 0 c.ram = true) :
    Cells.rising 0 (c.store b).ram = true := by
  have hp := c.pageValue.isLt
  simp only [Controller.store]
  split_ifs
  · rfl
  · exact Cells.rising_insert _ _ _ _ h (by omega) (by omega)
  · exact Cells.rising_insert _ _ _ _ h (by omega) (by omega)

theorem Controller.rising_foldl (payload : List Byte) (c : Controller) (h : Cells.rising 0 c.ram = true) :
    Cells.rising 0 (payload.foldl Controller.store c).ram = true := by
  induction payload generalizing c with
  | nil => exact h
  | cons b rest ih => exact ih _ (Controller.rising_store c b h)

theorem Controller.rising_command (c : Controller) (payload : List Byte) (h : Cells.rising 0 c.ram = true) :
    Cells.rising 0 (c.command payload).ram = true := by
  simp only [Controller.command]
  split <;> first | exact h | rfl

/-- Making the free values new leaves the cells. -/
@[simp] theorem Controller.redraw_ram (c : Controller) : c.redraw.ram = c.ram := by
  simp only [Controller.redraw]
  split <;> rfl

/-- A frame received keeps the canonical form of the controller's RAM. -/
theorem Controller.rising_receive (c : Controller) (frame : List Byte) (h : Cells.rising 0 c.ram = true) :
    Cells.rising 0 (c.receive frame).ram = true := by
  rw [Controller.receive, Controller.redraw_ram]
  cases frame with
  | nil => exact h
  | cons ctrl payload =>
    simp only [Controller.take]
    split_ifs
    · exact Controller.rising_foldl payload c h
    · exact Controller.rising_command c payload h

theorem Controller.rising_fail (c : Controller) (n : Nat) (h : Cells.rising 0 c.ram = true) :
    Cells.rising 0 (c.fail n).ram = true :=
  Cells.rising_keepBelow _ _ _ h

theorem Controller.rising_afterFailure (c : Controller) (q : Seq) (h : Cells.rising 0 c.ram = true) :
    Cells.rising 0 (c.afterFailure q).ram = true := by
  cases q with
  | idle => exact h
  | init => exact c.rising_fail _ h
  | flush => exact c.rising_fail _ h

theorem Controller.rising_afterCancel (c : Controller) (q : Seq) (h : Cells.rising 0 c.ram = true) :
    Cells.rising 0 (c.afterCancel q).ram = true := by
  cases q with
  | idle => exact h
  | init => rfl
  | flush => rfl

end Sys2Proof.Machine
end

