-- ==== Sys2Proof/Laws/Controller.lean ====
section
/-! SUPPORT. What a data byte and a data frame do to the controller while its pointers are determined (10_state R30): the bytes
land side by side in the page, every other cell stays, and the pointers stand behind the last byte; and what counts as known. -/

namespace Sys2Proof.Machine

/-- The pointers are determined, at page `p` and column `col`. -/
def Controller.At (c : Controller) (p : BitVec 4) (col : Nat) : Prop :=
  c.page = some p ∧ c.colLo = some (BitVec.ofNat 4 col) ∧ c.colHi = some (BitVec.ofNat 4 (col / 16))

/-- The column of determined pointers. -/
theorem Controller.At.column {c : Controller} {p : BitVec 4} {col : Nat} (h : c.At p col) (hc : col < 128) :
    c.columnValue.toNat = col := by
  obtain ⟨-, hlo, hhi⟩ := h
  simp only [Controller.columnValue, Controller.columnHigh, Controller.columnLow, hlo, hhi, Option.getD_some,
    BitVec.toNat_append, BitVec.toNat_ofNat]
  have e : ∀ n < 128, (n / 16 % 2 ^ 4) <<< 4 ||| n % 2 ^ 4 = n := by decide
  exact e col hc

/-- The page of determined pointers. -/
theorem Controller.At.pageValue {c : Controller} {p : BitVec 4} {col : Nat} (h : c.At p col) : c.pageValue = p := by
  simp [Controller.pageValue, h.1]

/-- One data byte, the pointers being determined: it is stored there, and the column increments up to 127. -/
theorem Controller.At.store {c : Controller} {p : BitVec 4} {col : Nat} (h : c.At p col) (hc : col < 128) (b : Byte) :
    (c.store b).ram = Cells.insert (p.toNat * 128 + col) b c.ram ∧ (col + 1 < 128 → (c.store b).At p (col + 1)) := by
  have e := h.column hc
  simp only [Controller.store, e, h.pageValue, if_neg (show ¬ 127 < col by omega)]
  split_ifs with hl
  · exact ⟨rfl, by omega⟩
  · exact ⟨rfl, fun _ => ⟨h.1, rfl, rfl⟩⟩

/-- A data frame's payload inside the page, the pointers being determined. -/
theorem Controller.At.foldl_store {p : BitVec 4} (payload : List Byte) {c : Controller} {col : Nat} (h : c.At p col)
    (hn : col + payload.length ≤ 128) (hc : col < 128) :
    (∀ i, Cells.lookup (payload.foldl Controller.store c).ram i
        = if p.toNat * 128 + col ≤ i ∧ i < p.toNat * 128 + col + payload.length
          then payload[i - (p.toNat * 128 + col)]? else Cells.lookup c.ram i)
      ∧ (col + payload.length < 128 → (payload.foldl Controller.store c).At p (col + payload.length)) := by
  induction payload generalizing c col with
  | nil => exact ⟨fun i => by simp, fun _ => h⟩
  | cons b rest ih =>
    obtain ⟨hr, ha⟩ := h.store hc b
    simp only [List.length_cons] at hn
    rcases Nat.lt_or_ge (col + 1) 128 with hl | hl
    · obtain ⟨h1, h2⟩ := ih (ha hl) (by omega) hl
      refine ⟨fun i => ?_, fun hb => ?_⟩
      · simp only [List.foldl_cons, h1 i, hr, Cells.lookup_insert, List.length_cons]
        rcases Nat.lt_trichotomy i (p.toNat * 128 + col) with hi | rfl | hi
        · rw [if_neg (by omega), if_neg (by omega), if_neg (by omega)]
        · rw [if_neg (by omega), if_pos rfl, if_pos (by omega)]
          simp
        · rw [if_neg (show i ≠ p.toNat * 128 + col by omega)]
          obtain ⟨k, rfl⟩ : ∃ k, i = p.toNat * 128 + col + (k + 1) := ⟨i - (p.toNat * 128 + col) - 1, by omega⟩
          rw [show p.toNat * 128 + col + (k + 1) - (p.toNat * 128 + (col + 1)) = k by omega,
            show p.toNat * 128 + col + (k + 1) - (p.toNat * 128 + col) = k + 1 by omega, List.getElem?_cons_succ]
          split_ifs <;> first | rfl | omega
      · simpa [Nat.add_assoc, Nat.add_comm] using h2 (by simp at hb; omega)
    · have hrest : rest = [] := List.length_eq_zero_iff.mp (by omega)
      subst hrest
      refine ⟨fun i => ?_, fun hb => by simp at hb; omega⟩
      simp only [List.foldl_cons, List.foldl_nil, hr, Cells.lookup_insert, List.length_cons, List.length_nil]
      split_ifs with h3 h4 h4
      · simp [h3]
      · omega
      · omega
      · rfl

/-! What counts as known (20_memory R68, 44_flush R218, 93_implementation_defined U1). -/

theorem Controller.known_full {c : Controller} (h : c.reliance = .full) : c.known = c := by simp [Controller.known, h]
theorem Controller.lookup_known_below {c : Controller} {n : Nat} (h : c.reliance = .below n) (i : Nat) :
    Cells.lookup c.known.ram i = if i < n then Cells.lookup c.ram i else none := by
  simp [Controller.known, h, Cells.lookup_keepBelow]

/-- An operation failed: of the cells, those below `n` are kept. -/
theorem Controller.lookup_fail (n : Nat) (c : Controller) (i : Nat) :
    Cells.lookup (c.fail n).ram i = if i < n then Cells.lookup c.ram i else none :=
  Cells.lookup_keepBelow c.ram n i

/-- No data byte, no command and no frame changes how much counts as known. -/
@[simp] theorem Controller.store_reliance (c : Controller) (b : Byte) : (c.store b).reliance = c.reliance := by
  simp only [Controller.store]
  split_ifs <;> rfl
@[simp] theorem Controller.foldl_store_reliance (payload : List Byte) (c : Controller) :
    (payload.foldl Controller.store c).reliance = c.reliance := by
  induction payload generalizing c with
  | nil => rfl
  | cons b rest ih => rw [List.foldl_cons, ih, Controller.store_reliance]
@[simp] theorem Controller.command_reliance (c : Controller) (payload : List Byte) :
    (c.command payload).reliance = c.reliance := by
  simp only [Controller.command]
  split <;> rfl
@[simp] theorem Controller.redraw_reliance (c : Controller) : c.redraw.reliance = c.reliance := by
  simp only [Controller.redraw]
  split <;> rfl
@[simp] theorem Controller.receive_reliance (c : Controller) (frame : List Byte) :
    (c.receive frame).reliance = c.reliance := by
  rw [Controller.receive, Controller.redraw_reliance]
  cases frame with
  | nil => rfl
  | cons ctrl payload =>
    simp only [Controller.take]
    split_ifs <;> simp

/-- What a CANCEL made unknown, a failure leaves so. -/
theorem Controller.fail_unknown {c : Controller} (h : c.reliance = .unknown) (n : Nat) : (c.fail n).reliance = .unknown := by
  simp [Controller.fail, h]

/-- Sending a frame does not change how much of the controller counts as known, whatever the answer. -/
@[simp] theorem State.sendFrame_reliance (s : State) (frame : List Byte) :
    (s.sendFrame frame).ctl.reliance = s.ctl.reliance := by
  rw [State.sendFrame_ctl]
  cases s.nextAnswer <;> simp

@[simp] theorem emit_reliance (ctrl : Byte) (payload : List Byte) (s : State) :
    (emit ctrl payload s).1.ctl.reliance = s.ctl.reliance := by
  rcases emit_cases ctrl payload s with ⟨_, e⟩ | ⟨_, e⟩
  · rw [e]
  · rw [e]; simp
@[simp] theorem splitFrom_reliance (ctrl : Byte) (fuel : Nat) (data : List Byte) (s : State) :
    (splitFrom ctrl fuel data s).1.ctl.reliance = s.ctl.reliance := by
  induction fuel generalizing data s with
  | zero => rfl
  | succ fuel ih =>
    cases data with
    | nil => rfl
    | cons b rest =>
      have k := emit_reliance ctrl ((b :: rest).take (s.params.tmax - 1)) s
      simp only [splitFrom]
      split
      · next t he => rw [ih]; rw [he] at k; exact k
      · next t c he => rw [he] at k; exact k

end Sys2Proof.Machine
end

