-- ==== Sys2Proof/Laws/Step.lean ====
section
/-! SUPPORT. Everything a step can do, said once: the changes an instruction's meaning can make, those of a sequencer step, and
how a step is made of them. -/

namespace Sys2Proof.Machine

/-- A pixel that is in range has its byte inside the framebuffer (R118). -/
theorem pixelIndex_lt {x y : Coord} (h : pixelInRange x y = true) : pixelIndex x y < 2048 := by
  simp only [pixelInRange, coordInRange, Bool.and_eq_true, decide_eq_true_eq] at h
  simp only [pixelIndex]
  omega

/-- What the meaning of an instruction can turn a state into. -/
inductive ExecChange (s : State) : State → Prop where
  /-- Catalog commands, control bytes, AS_BYTES. -/
  | returned (b : List Byte) : ExecChange s (s.returnBytes b)
  /-- SET_PIXEL out of range. -/
  | unchanged : ExecChange s s
  /-- SET_PIXEL in range, CLEAR. -/
  | drew (fb : List Host.Cell) (h : s.sessionIdle = true) (wf : Memory.wf s.fb = true → Memory.wf fb = true) :
      ExecChange s (s.setFb fb)
  /-- CONNECT. -/
  | connected (addr : Byte) (h : s.builderIdle = true) :
      ExecChange s { s with busPresent := true, addr := addr, bstate := .configured }
  /-- BUILD without a bus. -/
  | buildFailed (h : s.builderIdle = true) (hb : s.busPresent = false) :
      ExecChange s { s.raiseError .noBusConnected with bstate := .failed .noBusConnected }
  /-- BUILD with a bus. -/
  | buildStarted (h : s.builderIdle = true) (hb : s.busPresent = true) :
      ExecChange s ((s.setFb (filled 0x00)).accept (.init .build 0))
  /-- INITIALIZE. -/
  | initAccepted (h : s.sessionIdle = true) : ExecChange s (s.accept (.init .host 0))
  /-- FLUSH. -/
  | flushAccepted (h : s.sessionIdle = true) : ExecChange s (s.accept (.flush 0 .page))
  /-- CANCEL during BUILD's walk. -/
  | cancelledBuild (h : s.cancellable = true) (hb : s.seq.isBuildWalk = true) :
      ExecChange s { s.dropReset with result := .cancelled }
  /-- CANCEL of another operation. -/
  | cancelledOperation (h : s.cancellable = true) (hb : s.seq.isBuildWalk = false) :
      ExecChange s { s with seq := .idle, result := .cancelled, ctl := s.ctl.afterCancel s.seq }
  /-- DROP. -/
  | dropped : ExecChange s s.dropReset
  /-- SEND_COMMAND. -/
  | commandSent (cmd : List Byte) (h : s.sessionIdle = true) (hl : 1 ≤ cmd.length) (ht : 1 + cmd.length ≤ s.params.tmax) :
      ExecChange s (finishFramer (emit s.params.ctrlCmd.byte cmd s))
  /-- SEND_DATA. -/
  | dataSent (data : List Byte) (h : s.sessionIdle = true) : ExecChange s (finishFramer (split ctrlData data s))

theorem exec_change {i : Instr} {s t : State} (h : exec i s = .next t) : ExecChange s t := by
  cases i with
  | startLineShort line =>
    simp only [exec, execStartLineShort] at h
    split_ifs at h
    cases h
    exact .returned _
  | connect addr =>
    simp only [exec, execConnect] at h
    split_ifs at h with h1
    cases h
    exact .connected addr h1
  | build =>
    simp only [exec, execBuild] at h
    split_ifs at h with h1 h2
    · cases h; exact .buildStarted h1 h2
    · cases h; exact .buildFailed h1 (by simpa using h2)
  | initializeOp =>
    simp only [exec, execInitializeOp] at h
    split_ifs at h with h1
    cases h
    exact .initAccepted h1
  | flush =>
    simp only [exec, execFlush] at h
    split_ifs at h with h1
    cases h
    exact .flushAccepted h1
  | setPixel x y on =>
    simp only [exec, execSetPixel] at h
    split_ifs at h with h1 h2
    · rw [memWrite_one _ _ _ (pixelIndex_lt h2)] at h
      cases h
      exact .drew _ h1 fun hw => Memory.wf_writeByte _ _ _ hw (pixelIndex_lt h2)
    · cases h; exact .unchanged
  | clear on =>
    rw [exec, execClear] at h
    split at h
    · next h1 => cases h; exact .drew (filled (if on then 0xFF else 0x00)) h1 fun _ => Memory.wf_filled _
    · cases h
  | asBytes =>
    simp only [exec, execAsBytes] at h
    split_ifs at h with h1
    rw [memRead_eq _ _ _ (by omega)] at h
    cases h
    exact .returned _
  | cancel =>
    simp only [exec, execCancel] at h
    split_ifs at h with h1 h2
    · cases h; exact .cancelledBuild h1 h2
    · cases h; exact .cancelledOperation h1 (by simpa using h2)
  | drop => cases h; exact .dropped
  | sendCommand cmd =>
    simp only [exec, execSendCommand] at h
    split_ifs at h with h1 h2 h3
    cases h
    exact .commandSent cmd h1 (by omega) h3
  | sendData data =>
    simp only [exec, execSendData] at h
    split_ifs at h with h1
    cases h
    exact .dataSent data h1
  | _ => cases h; exact .returned _

/-- What a step of the sequencer can turn a state into. -/
inductive SeqChange (s : State) : State → Prop where
  | stayed (h : s.seq = .idle) : SeqChange s s
  | initStep (ctx : Ctx) (k : Fin 15) (h : s.seq = .init ctx k) :
      SeqChange s (afterInit ctx k (emit s.params.ctrlCmd.byte (initCmd s.cfg k) s))
  | flushStep (p : Fin 16) (ph : Phase) (ctrl : Byte) (payload : List Byte) (h : s.seq = .flush p ph)
      (hf : flushFrame s p ph = some (ctrl, payload)) :
      SeqChange s (afterFlush p ph payload.length (emit ctrl payload s))

theorem seqStep_change {s t : State} (h : seqStep s = .next t) : SeqChange s t := by
  simp only [seqStep] at h
  split at h
  · next hq => cases h; exact .stayed hq
  · next ctx k hq => cases h; exact .initStep ctx k hq
  · next p ph hq =>
    split at h
    · next ctrl payload hf => cases h; exact .flushStep p ph ctrl payload hq hf
    · cases h

/-- All that a step can do: run the meaning of the instruction presented, make the sequencer's step, or stay. -/
theorem step_cases {s t : State} (h : step s = .next t) :
    (∃ request port i, nextMove s = .call request port ∧ decode request = .instr i ∧ exec i (s.setPort port) = .next t)
      ∨ (∃ port, nextMove s = .sequencer port ∧ seqStep (s.setPort port) = .next t)
      ∨ (nextMove s = .wait ∧ t = s) := by
  simp only [step] at h
  split at h
  · next request port hm =>
    simp only [runRequest] at h
    split at h
    · next i hd => exact .inl ⟨request, port, i, hm, hd, h⟩
    · cases h
  · next port hm => exact .inr (.inl ⟨port, hm, h⟩)
  · next hm => cases h; exact .inr (.inr ⟨hm, rfl⟩)

/-- A property that does not look at the port is kept by every step if every meaning and every sequencer step keeps it. -/
theorem step_keeps {P Q : State → Prop} (hport : ∀ s q, P s → P (s.setPort q)) (hwait : ∀ s, P s → Q s)
    (hexec : ∀ s t, P s → ExecChange s t → Q t) (hseq : ∀ s t, P s → SeqChange s t → Q t)
    {s t : State} (hs : P s) (h : step s = .next t) : Q t := by
  rcases step_cases h with ⟨_, port, i, _, _, he⟩ | ⟨port, _, he⟩ | ⟨_, rfl⟩
  · exact hexec _ t (hport s port hs) (exec_change he)
  · exact hseq _ t (hport s port hs) (seqStep_change he)
  · exact hwait _ hs

end Sys2Proof.Machine
end

