-- ==== Sys2Proof/Laws/Framebuffer.lean ====
section
/-! SUPPORT. The pixel operations said once: when a pixel is in range, which bit SET_PIXEL's byte operation writes, and what
SET_PIXEL answers in an idle session. -/

namespace Sys2Proof.Machine

theorem pixelBit_lt (y : Coord) : pixelBit y < 8 := Nat.mod_lt _ (by omega)

/-- R112. -/
theorem pixelInRange_iff {x y : Coord} :
    pixelInRange x y = true ↔ 0 ≤ x.toInt ∧ x.toInt ≤ 127 ∧ 0 ≤ y.toInt ∧ y.toInt ≤ 127 := by
  simp only [pixelInRange, coordInRange, Bool.and_eq_true, decide_eq_true_eq]
  omega

/-- R113: the byte operation writes its one bit and keeps the seven others. -/
theorem getLsbD_putBit (v : Byte) (b k : Nat) (on : Bool) (hb : b < 8) (hk : k < 8) :
    (putBit v b on).getLsbD k = if k = b then on else v.getLsbD k := by
  have one : ∀ b < 8, ∀ k < 8, ((1 : Byte) <<< b).getLsbD k = decide (k = b) := by decide
  cases on
  · simp only [putBit, Bool.false_eq_true, if_false, BitVec.getLsbD_and, BitVec.getLsbD_not, one b hb k hk]
    by_cases h : k = b <;> simp [h, hk, hb]
  · simp only [putBit, if_true, BitVec.getLsbD_or, one b hb k hk]
    by_cases h : k = b <;> simp [h]

/-- SET_PIXEL in range, in an idle session. -/
theorem exec_setPixel_inRange {s : State} {x y : Coord} {on : Bool} (h : s.sessionIdle = true)
    (hr : pixelInRange x y = true) :
    exec (.setPixel x y on) s
      = .next (s.setFb (writeByte s.fb (pixelIndex x y) (putBit (readByte s.fb (pixelIndex x y)) (pixelBit y) on))) := by
  simp [exec, execSetPixel, h, hr, memWrite_one _ _ _ (pixelIndex_lt hr)]

/-- SET_PIXEL out of range, in an idle session. -/
theorem exec_setPixel_outOfRange {s : State} {x y : Coord} {on : Bool} (h : s.sessionIdle = true)
    (hr : pixelInRange x y = false) : exec (.setPixel x y on) s = .next s := by
  simp [exec, execSetPixel, h, hr]

/-- The canonical form after SET_PIXEL's write. -/
theorem Memory.wf_setPixel {m : List Host.Cell} {x y : Coord} (v : Byte) (hm : Memory.wf m = true)
    (hr : pixelInRange x y = true) : Memory.wf (writeByte m (pixelIndex x y) v) = true :=
  Memory.wf_writeByte _ _ _ hm (pixelIndex_lt hr)

end Sys2Proof.Machine
end

