-- ==== Sys2Proof/Laws/PerInstr.lean ====
section
/-! SUPPORT. Per instruction: the command bytes that present a well-formed instruction are one byte that takes no argument, or a
first byte that takes one and its argument (30_encoding R85, R89); no other instruction is presented by command bytes. -/

namespace Sys2Proof

/-- R89: every first byte that takes an argument lies from `0x81` on. -/
theorem takesArgument_low (b : Byte) (h : b.toNat < 0x80) : takesArgument b = false := by
  have e : ∀ c : Byte, 0x80 ≤ c.toNat → (b == c) = false := fun c hc => by
    rw [beq_eq_false_iff_ne]
    rintro rfl
    omega
  simp only [takesArgument, Bool.or_eq_false_iff]
  exact ⟨⟨⟨⟨⟨⟨⟨⟨e _ (by decide), e _ (by decide)⟩, e _ (by decide)⟩, e _ (by decide)⟩, e _ (by decide)⟩, e _ (by decide)⟩,
    e _ (by decide)⟩, e _ (by decide)⟩, e _ (by decide)⟩

/-- R137: `0x40 | line` stays below `0x80`. -/
theorem startLineShort_lt (line : Byte) (h : line.toNat ≤ 63) : ((0x40 : Byte) ||| line).toNat < 0x80 := by
  rw [BitVec.toNat_or]
  exact Nat.or_lt_two_pow (n := 7) (by decide) (by omega)

/-- The low nibble of a byte is one of sixteen values. -/
theorem lowNibble_cases {P : Byte → Prop} (h : ∀ n : BitVec 4, P (n.setWidth 8)) (b : Byte) : P (b &&& 0x0F) := by
  have e : b &&& 0x0F = (b.setWidth 4).setWidth 8 := by
    ext i hi
    have low : ∀ i < 8, (15#8).getLsbD i = decide (i < 4) := by decide
    simp [← BitVec.getLsbD_eq_getElem, low i hi, hi, Bool.and_comm]
  exact e ▸ h _

theorem pageAddress_alone (page : Byte) : takesArgument (0xB0 ||| (page &&& 0x0F)) = false :=
  lowNibble_cases (P := fun n => takesArgument (0xB0 ||| n) = false) (by decide) page
theorem columnLow_alone (col : Byte) : takesArgument (0x00 ||| (col &&& 0x0F)) = false :=
  lowNibble_cases (P := fun n => takesArgument (0x00 ||| n) = false) (by decide) col
theorem columnHigh_alone (col : Byte) : takesArgument (0x10 ||| ((col >>> 4) &&& 0x0F)) = false :=
  lowNibble_cases (P := fun n => takesArgument (0x10 ||| n) = false) (by decide) (col >>> 4)

end Sys2Proof

namespace Sys2Proof.Laws.EncodedLength

/-- What an instruction is presented by, if by command bytes. -/
def Statement (i : Instr) : Prop :=
  i.wf = true → ∀ bytes, encode i = .command bytes →
    (∃ op, bytes = [op] ∧ takesArgument op = false) ∨ ∃ op arg, bytes = [op, arg] ∧ takesArgument op = true

theorem of_one_byte {i : Instr} (op : Byte) (h : takesArgument op = false) {bytes : List Byte} (he : encode i = .command bytes)
    (hb : encode i = .command [op]) :
    (∃ op, bytes = [op] ∧ takesArgument op = false) ∨ ∃ op arg, bytes = [op, arg] ∧ takesArgument op = true :=
  .inl ⟨op, by rw [hb] at he; exact (Request.command.inj he).symm, h⟩

theorem of_two_bytes {i : Instr} (op arg : Byte) (h : takesArgument op = true) {bytes : List Byte} (he : encode i = .command bytes)
    (hb : encode i = .command [op, arg]) :
    (∃ op, bytes = [op] ∧ takesArgument op = false) ∨ ∃ op arg, bytes = [op, arg] ∧ takesArgument op = true :=
  .inr ⟨op, arg, by rw [hb] at he; exact (Request.command.inj he).symm, h⟩

theorem displayOff : Statement .displayOff := fun _ _ he => of_one_byte _ (by decide) he rfl
theorem displayOn : Statement .displayOn := fun _ _ he => of_one_byte _ (by decide) he rfl
theorem contrast (level : Byte) : Statement (.contrast level) := fun _ _ he => of_two_bytes _ _ (by decide) he rfl
theorem multiplexRatio (ratio : Byte) : Statement (.multiplexRatio ratio) := fun _ _ he => of_two_bytes _ _ (by decide) he rfl
theorem displayOffset (offset : Byte) : Statement (.displayOffset offset) := fun _ _ he => of_two_bytes _ _ (by decide) he rfl
theorem startLine (line : Byte) : Statement (.startLine line) := fun _ _ he => of_two_bytes _ _ (by decide) he rfl
theorem startLineShort (line : Byte) : Statement (.startLineShort line) := fun hw _ he => of_one_byte _ (by simp only [Instr.wf] at hw; exact takesArgument_low _ (startLineShort_lt line (by simpa using hw))) he rfl
theorem clockDivide (freq : Byte) (ratio : Byte) : Statement (.clockDivide freq ratio) := fun _ _ he => of_two_bytes _ _ (by decide) he rfl
theorem chargePumpOn : Statement .chargePumpOn := fun _ _ he => of_two_bytes _ _ (by decide) he rfl
theorem chargePumpOff : Statement .chargePumpOff := fun _ _ he => of_two_bytes _ _ (by decide) he rfl
theorem precharge (period : Byte) : Statement (.precharge period) := fun _ _ he => of_two_bytes _ _ (by decide) he rfl
theorem vcomDeselect (level : Byte) : Statement (.vcomDeselect level) := fun _ _ he => of_two_bytes _ _ (by decide) he rfl
theorem segmentRemapNormal : Statement .segmentRemapNormal := fun _ _ he => of_one_byte _ (by decide) he rfl
theorem segmentRemapRemapped : Statement .segmentRemapRemapped := fun _ _ he => of_one_byte _ (by decide) he rfl
theorem comScanNormal : Statement .comScanNormal := fun _ _ he => of_one_byte _ (by decide) he rfl
theorem comScanRemapped : Statement .comScanRemapped := fun _ _ he => of_one_byte _ (by decide) he rfl
theorem entireDisplayResume : Statement .entireDisplayResume := fun _ _ he => of_one_byte _ (by decide) he rfl
theorem entireDisplayForce : Statement .entireDisplayForce := fun _ _ he => of_one_byte _ (by decide) he rfl
theorem displayNormal : Statement .displayNormal := fun _ _ he => of_one_byte _ (by decide) he rfl
theorem displayInverted : Statement .displayInverted := fun _ _ he => of_one_byte _ (by decide) he rfl
theorem pageAddress (page : Byte) : Statement (.pageAddress page) := fun _ _ he => of_one_byte _ (pageAddress_alone page) he rfl
theorem columnLow (col : Byte) : Statement (.columnLow col) := fun _ _ he => of_one_byte _ (columnLow_alone col) he rfl
theorem columnHigh (col : Byte) : Statement (.columnHigh col) := fun _ _ he => of_one_byte _ (columnHigh_alone col) he rfl
theorem comPins (config : Byte) : Statement (.comPins config) := fun _ _ he => of_two_bytes _ _ (by decide) he rfl
theorem ctrlCommand00 : Statement .ctrlCommand00 := fun _ _ he => nomatch he
theorem ctrlCommand80 : Statement .ctrlCommand80 := fun _ _ he => nomatch he
theorem ctrlData : Statement .ctrlData := fun _ _ he => nomatch he
theorem connect (addr : Byte) : Statement (.connect addr) := fun _ _ he => nomatch he
theorem build : Statement .build := fun _ _ he => nomatch he
theorem initializeOp : Statement .initializeOp := fun _ _ he => nomatch he
theorem flush : Statement .flush := fun _ _ he => nomatch he
theorem setPixel (x : Coord) (y : Coord) (on : Bool) : Statement (.setPixel x y on) := fun _ _ he => nomatch he
theorem clear (on : Bool) : Statement (.clear on) := fun _ _ he => nomatch he
theorem asBytes : Statement .asBytes := fun _ _ he => nomatch he
theorem cancel : Statement .cancel := fun _ _ he => nomatch he
theorem drop : Statement .drop := fun _ _ he => nomatch he
theorem sendCommand (cmd : List Byte) : Statement (.sendCommand cmd) := fun _ _ he => nomatch he
theorem sendData (data : List Byte) : Statement (.sendData data) := fun _ _ he => nomatch he

end Sys2Proof.Laws.EncodedLength
end

