-- ==== Sys2Proof/Tests/Slice0.lean ====
section
/-! SUPPORT. The model's own tests: ill-formed terms refused, words written out from 30_encoding decoded, one step of each
instruction against the vectors of 95_test_vectors, and for every statement with hypotheses a witness that meets them. -/

namespace Sys2Proof.Tests

open Sys2Proof Sys2Proof.Machine

/-- What a test looks at in an outcome. -/
def get {α : Type} (f : State → α) : Out → Option α
  | .next t => some (f t)
  | .fault _ => none
  | .refused _ => none

/-- The refusal of an outcome. -/
def refusal : Out → Option Refusal
  | .next _ => none
  | .fault _ => none
  | .refused r => some r

/-- The configuration T0 of 95_test_vectors section 0, but for `BINDING`; a session, idle. -/
def t0 : State :=
  { State.reset with
    params := { tmax := 32, stageCap := 32, ctrlCmd := .c00, binding := .nonblocking, observer := false }
    cfg := { clkFreq := 5, clkRatio := 1, offset := 0x60, contrast := 0x2F, precharge := 0x22, vcom := 0x35, comPins := 0x12,
             segRemap := 0, comRemap := 0 }
    busPresent := true
    bstate := .built }

/-- An error value of the transport. -/
def busError : BusError := ⟨0, .inl rfl⟩

/-- T0 before CONNECT. -/
def t0Reset : State := { t0 with busPresent := false, bstate := .unconfigured }

/-- T0 after CONNECT. -/
def t0Configured : State := { t0 with bstate := .configured }

/-- T0 at a position of the sequencer, with the answers that the transport gives next. -/
def t0At (seq : Seq) (answers : List Answer) : State := { t0 with seq := seq, answers := answers }

/-- T0 with other bounds. -/
def t0With (tmax stageCap : Nat) (answers : List Answer) : State :=
  { t0 with params := { t0.params with tmax := tmax, stageCap := stageCap }, answers := answers }

/-! Well-formedness: an ill-formed term for each check. -/

theorem test_wf_startLine : Instr.wf (.startLine 127) = true ∧ Instr.wf (.startLine 128) = false := by decide
theorem test_wf_startLineShort : Instr.wf (.startLineShort 63) = true ∧ Instr.wf (.startLineShort 64) = false := by decide
theorem test_wf_clockDivide :
    Instr.wf (.clockDivide 15 15) = true ∧ Instr.wf (.clockDivide 16 0) = false ∧ Instr.wf (.clockDivide 0 16) = false := by
  decide
theorem test_wf_pageAddress : Instr.wf (.pageAddress 15) = true ∧ Instr.wf (.pageAddress 16) = false := by decide
theorem test_wf_columnLow : Instr.wf (.columnLow 127) = true ∧ Instr.wf (.columnLow 128) = false := by decide
theorem test_wf_columnHigh : Instr.wf (.columnHigh 127) = true ∧ Instr.wf (.columnHigh 128) = false := by decide
theorem test_wf_sendCommand :
    Instr.wf (.sendCommand [0x81, 0x2F]) = true ∧ Instr.wf (.sendCommand []) = false
      ∧ Instr.wf (.sendCommand [0x81, 0x2F, 0x00]) = false := by decide

/-! Decoding: words written out bit by bit from the encodings of 30_encoding R85, R87, R82, R83, R100. -/

theorem test_decode_c1 :
    decode (.command [0b10101110]) = .instr .displayOff ∧ decode (.command [0b10101111]) = .instr .displayOn
      ∧ decode (.command [0b10100000]) = .instr .segmentRemapNormal
      ∧ decode (.command [0b10100001]) = .instr .segmentRemapRemapped
      ∧ decode (.command [0b11000000]) = .instr .comScanNormal ∧ decode (.command [0b11001000]) = .instr .comScanRemapped
      ∧ decode (.command [0b10100100]) = .instr .entireDisplayResume
      ∧ decode (.command [0b10100101]) = .instr .entireDisplayForce
      ∧ decode (.command [0b10100110]) = .instr .displayNormal ∧ decode (.command [0b10100111]) = .instr .displayInverted := by
  decide

theorem test_decode_c1f :
    decode (.command [0b01111111]) = .instr (.startLineShort 63) ∧ decode (.command [0b01000000]) = .instr (.startLineShort 0)
      ∧ decode (.command [0b10110101]) = .instr (.pageAddress 5) ∧ decode (.command [0b10111111]) = .instr (.pageAddress 15)
      ∧ decode (.command [0b00000100]) = .instr (.columnLow 4) ∧ decode (.command [0b00010110]) = .instr (.columnHigh 0x60) := by
  decide

theorem test_decode_c2 :
    decode (.command [0b10000001, 0b00101111]) = .instr (.contrast 0x2F)
      ∧ decode (.command [0b10101000, 0b01111111]) = .instr (.multiplexRatio 0x7F)
      ∧ decode (.command [0b11010011, 0b01100000]) = .instr (.displayOffset 0x60)
      ∧ decode (.command [0b11011100, 0b01111111]) = .instr (.startLine 127)
      ∧ decode (.command [0b11010101, 0b01010001]) = .instr (.clockDivide 5 1)
      ∧ decode (.command [0b10101101, 0b10001011]) = .instr .chargePumpOn
      ∧ decode (.command [0b10101101, 0b10001010]) = .instr .chargePumpOff
      ∧ decode (.command [0b11011001, 0b00100010]) = .instr (.precharge 0x22)
      ∧ decode (.command [0b11011011, 0b00110101]) = .instr (.vcomDeselect 0x35)
      ∧ decode (.command [0b11011010, 0b00010010]) = .instr (.comPins 0x12) := by decide

theorem test_decode_control :
    decode (.control 0b00000000) = .instr .ctrlCommand00 ∧ decode (.control 0b10000000) = .instr .ctrlCommand80
      ∧ decode (.control 0b01000000) = .instr .ctrlData ∧ decode (.control 0b11000000) = .reject (.reservedControl 0xC0) := by
  decide

theorem test_decode_host :
    decode (.host 0b0000 0x3D 0 0 false) = .instr (.connect 0x3D) ∧ decode (.host 0b0001 0 0 0 false) = .instr .build
      ∧ decode (.host 0b0010 0 0 0 false) = .instr .initializeOp ∧ decode (.host 0b0011 0 0 0 false) = .instr .flush
      ∧ decode (.host 0b0100 0 5 10 true) = .instr (.setPixel 5 10 true)
      ∧ decode (.host 0b0101 0 0 0 true) = .instr (.clear true) ∧ decode (.host 0b0110 0 0 0 false) = .instr .asBytes
      ∧ decode (.host 0b0111 0 0 0 false) = .instr .cancel ∧ decode (.host 0b1000 0 0 0 false) = .instr .drop
      ∧ decode (.host 0b1001 0 0 0 false) = .reject (.reservedSelector 9)
      ∧ decode (.host 0b1111 0 0 0 false) = .reject (.reservedSelector 15) := by decide

theorem test_decode_framer :
    decode (.sendCommand [0xAE]) = .instr (.sendCommand [0xAE]) ∧ decode (.sendData []) = .instr (.sendData []) := by decide

/-- Reserved first bytes and arguments, and the wrong number of bytes, are rejected by name (R88, R89). -/
theorem test_decode_rejects :
    decode (.command []) = .reject .empty ∧ decode (.command [0x80]) = .reject (.reservedOpcode 0x80)
      ∧ decode (.command [0xC1]) = .reject (.reservedOpcode 0xC1) ∧ decode (.command [0x81]) = .reject (.wrongLength 0x81 1)
      ∧ decode (.command [0xAE, 0x00]) = .reject (.wrongLength 0xAE 2)
      ∧ decode (.command [0xDC, 0x80]) = .reject (.reservedArgument 0xDC 0x80)
      ∧ decode (.command [0xAD, 0x10]) = .reject (.reservedArgument 0xAD 0x10) := by decide

/-- The opcode table's words (log entry 18). -/
theorem test_decodeTableWord :
    decodeTableWord 8 0xAE = some .displayOff ∧ decodeTableWord 16 0x8100 = some (.contrast 0)
      ∧ decodeTableWord 16 0xAD8B = some .chargePumpOn ∧ decodeTableWord 8 0x10 = some (.columnHigh 0)
      ∧ decodeTableWord 8 0x80 = some .ctrlCommand80 ∧ decodeTableWord 8 0x08 = some .drop
      ∧ decodeTableWord 4 0x08 = some .drop ∧ decodeTableWord 0 0 = none := by decide
/-- By the row's own width (R85): `0x5` of width 4 is CLEAR, `0x05` of width 8 is COLUMN_LOW, `0x40` stands at two positions. -/
theorem test_wordReadings :
    wordReadings 4 0x5 = [.clear false] ∧ wordReadings 8 0x05 = [.columnLow 5]
      ∧ wordReadings 8 0x00 = [.columnLow 0, .ctrlCommand00] ∧ wordReadings 8 0x40 = [.startLineShort 0, .ctrlData]
      ∧ wordReadings 16 0xAD8A = [.chargePumpOff] ∧ wordReadings 8 0x80 = [.ctrlCommand80] := by decide

/-- The word placed is the one that the next step runs, in an idle block and in a busy one. -/
theorem test_withFetchWord :
    get State.ret (step (State.reset.withFetchWord 16 0x8100)) = some (.bytes [0x81, 0x00])
      ∧ get State.ret (step ((t0At (.flush 3 .page) []).withFetchWord 8 0xAF)) = some (.bytes [0xAF])
      ∧ get State.busPresent (step (State.reset.withFetchWord 4 0)) = some true := by decide

/-! The Command Catalog: vectors V1 to V4 and K1 to K35. -/

theorem test_displayOff : get State.ret (exec .displayOff t0) = some (.bytes [0xAE]) := by decide
theorem test_displayOn : get State.ret (exec .displayOn t0) = some (.bytes [0xAF]) := by decide
theorem test_contrast : get State.ret (exec (.contrast 0xFF) t0) = some (.bytes [0x81, 0xFF]) := by decide
theorem test_multiplexRatio : get State.ret (exec (.multiplexRatio 0x7F) t0) = some (.bytes [0xA8, 0x7F]) := by decide
theorem test_displayOffset : get State.ret (exec (.displayOffset 0x60) t0) = some (.bytes [0xD3, 0x60]) := by decide
theorem test_startLine_mask : get State.ret (exec (.startLine 128) t0) = some (.bytes [0xDC, 0x00]) := by decide
theorem test_startLineShort : get State.ret (exec (.startLineShort 63) t0) = some (.bytes [0x7F]) := by decide
theorem test_startLineShort_refused : refusal (exec (.startLineShort 64) t0) = some (.startLineShortDomain 64) := by decide
theorem test_clockDivide : get State.ret (exec (.clockDivide 5 1) t0) = some (.bytes [0xD5, 0x51]) := by decide
theorem test_chargePumpOn : get State.ret (exec .chargePumpOn t0) = some (.bytes [0xAD, 0x8B]) := by decide
theorem test_chargePumpOff : get State.ret (exec .chargePumpOff t0) = some (.bytes [0xAD, 0x8A]) := by decide
theorem test_precharge : get State.ret (exec (.precharge 0x22) t0) = some (.bytes [0xD9, 0x22]) := by decide
theorem test_vcomDeselect : get State.ret (exec (.vcomDeselect 0x35) t0) = some (.bytes [0xDB, 0x35]) := by decide
theorem test_segmentRemapNormal : get State.ret (exec .segmentRemapNormal t0) = some (.bytes [0xA0]) := by decide
theorem test_segmentRemapRemapped : get State.ret (exec .segmentRemapRemapped t0) = some (.bytes [0xA1]) := by decide
theorem test_comScanNormal : get State.ret (exec .comScanNormal t0) = some (.bytes [0xC0]) := by decide
theorem test_comScanRemapped : get State.ret (exec .comScanRemapped t0) = some (.bytes [0xC8]) := by decide
theorem test_entireDisplayResume : get State.ret (exec .entireDisplayResume t0) = some (.bytes [0xA4]) := by decide
theorem test_entireDisplayForce : get State.ret (exec .entireDisplayForce t0) = some (.bytes [0xA5]) := by decide
theorem test_displayNormal : get State.ret (exec .displayNormal t0) = some (.bytes [0xA6]) := by decide
theorem test_displayInverted : get State.ret (exec .displayInverted t0) = some (.bytes [0xA7]) := by decide
theorem test_pageAddress_mask : get State.ret (exec (.pageAddress 16) t0) = some (.bytes [0xB0]) := by decide
theorem test_columnLow : get State.ret (exec (.columnLow 100) t0) = some (.bytes [0x04]) := by decide
theorem test_columnHigh : get State.ret (exec (.columnHigh 100) t0) = some (.bytes [0x16]) := by decide
theorem test_comPins : get State.ret (exec (.comPins 0x12) t0) = some (.bytes [0xDA, 0x12]) := by decide
theorem test_ctrlCommand00 : get State.ret (exec .ctrlCommand00 t0) = some (.bytes [0x00]) := by decide
theorem test_ctrlCommand80 : get State.ret (exec .ctrlCommand80 t0) = some (.bytes [0x80]) := by decide
theorem test_ctrlData : get State.ret (exec .ctrlData t0) = some (.bytes [0x40]) := by decide

/-! Framebuffer operations: vectors F2, F12, F22, F23, F24. -/

theorem test_setPixel_top : get State.fb (exec (.setPixel 127 127 true) t0) = some [(2047, 0x80)] := by decide
theorem test_setPixel_off :
    get State.fb (exec (.setPixel 5 15 false) { t0 with fb := [(133, 0xFB)] }) = some [(133, 0x7B)] := by decide
theorem test_clear_on : get (fun t => readByte t.fb 2047) (exec (.clear true) t0) = some 0xFF := by
  rw [exec, execClear, if_pos (by decide)]
  simp only [get, State.setFb, if_true]
  rw [readByte_filled _ _ (by decide)]
theorem test_clear_off : get State.fb (exec (.clear false) { t0 with fb := [(133, 0x04)] }) = some [] := by decide
theorem test_asBytes :
    get (fun t => match t.ret with
      | .bytes b => (b.take 3, b.length)
      | _ => ([], 0)) (exec .asBytes { t0 with fb := [(0, 0x01), (2, 0x04)] }) = some ([0x01, 0x00, 0x04], 2048) := by
  decide +kernel

/-! The Transport Framer: vectors T1, T16, T13, T14. -/

theorem test_sendCommand :
    get State.wire (exec (.sendCommand [0x81, 0x2F]) (t0With 32 32 [.ok]))
      = some [{ addr := 0x3C, bytes := [0x00, 0x81, 0x2F], answer := .ok }] := by decide
theorem test_sendCommand_overflow :
    get (fun t => (t.wire, t.ret)) (exec (.sendCommand [0x81, 0x2F]) (t0With 32 2 []))
      = some ([], .framer (.err (.payloadOverflow 3))) := by decide
/-- As T13 with `TMAX = 3`: the third write fails, and the fourth frame is never sent. -/
theorem test_sendData_failure :
    get (fun t => (t.wire.map WireEntry.bytes, t.ret)) (exec (.sendData [1, 2, 3, 4, 5, 6, 7]) (t0With 3 32 [.ok, .ok, .err busError, .ok]))
      = some ([[0x40, 1, 2], [0x40, 3, 4], [0x40, 5, 6]], .framer (.err (.transportError busError))) := by decide
/-- As T10 with `TMAX = 4`: one byte more than a chunk needs a second frame. -/
theorem test_sendData_two_frames :
    get (fun t => (t.wire.map WireEntry.bytes, t.ret)) (exec (.sendData [1, 2, 3, 4]) (t0With 4 4 [.ok, .ok]))
      = some ([[0x40, 1, 2, 3], [0x40, 4]], .framer .ok) := by decide

/-! The controller of R30. -/

/-- "the two column commands set the low and high nibbles of `ccol`": the other nibble stays, known or not. -/
theorem test_controller_columnLow (c : Controller) :
    (c.command [0x05]).columnLow = 5 ∧ (c.command [0x05]).columnHigh = c.columnHigh
      ∧ (c.command [0x17]).columnHigh = 7 ∧ (c.command [0x17]).columnLow = c.columnLow := ⟨rfl, rfl, rfl, rfl⟩
/-- The byte at column 127 is stored and no other cell changes; both pointers are then free (N9). -/
theorem test_controller_column_127 :
    let c := { Controller.unknown with page := some 2, colLo := some 15, colHi := some 7 }
    (c.store 0xA5).ram = [(383, 0xA5)] ∧ (c.store 0xA5).epoch = c.epoch ∧ (c.store 0xA5).page = none
      ∧ (c.store 0xA5).colLo = none ∧ (c.store 0xA5).colHi = none := by decide

/-- P6 after its CANCEL: a data frame of the second FLUSH makes nothing known (R218), and its last one makes everything known. -/
theorem test_controller_after_cancel :
    let c := { Controller.unknown with page := some 15, colLo := some 12, colHi := some 7, reliance := .unknown }
    let s := { t0At (.flush 15 (.data 124)) [.ok] with ctl := c }
    (c.receive [0x40, 0xFF]).known.ram = [] ∧ (c.receive [0x40, 0xFF]).reliance = .unknown
      ∧ get (fun t => (t.result, t.ctl.known.ram)) (seqStep s) = some (.ok, [(2044, 0), (2045, 0), (2046, 0), (2047, 0)]) := by
  decide

/-! The builder, the walks, CANCEL and DROP: vectors B1, B3, B6, B11, B12, I2, I7, L5, L6, B10. -/

theorem test_connect :
    get (fun t => (t.addr, t.bstate, t.busPresent)) (exec (.connect 0x3D) t0Configured) = some (0x3D, .configured, true) := by
  decide
theorem test_connect_not_admitted :
    refusal (exec (.connect 0x3C) { t0 with bstate := .failed .initializationFailed })
      = some (.notAdmitted (.connect 0x3C)) := by decide
theorem test_build_without_bus :
    get (fun t => (t.bstate, t.result, t.wire)) (exec .build t0Reset)
      = some (.failed .noBusConnected, .err .noBusConnected, []) := by decide
theorem test_build_starts :
    get (fun t => (t.seq, t.result, t.fb)) (exec .build { t0Configured with fb := [(3, 1)], result := .cancelled })
      = some (.init .build 0, .none, []) := by decide
theorem test_initialize :
    get (fun t => (t.seq, t.result)) (exec .initializeOp { t0 with result := .ok }) = some (.init .host 0, .none) := by decide
theorem test_initialize_third_frame_fails :
    get (fun t => (t.seq, t.bstate, t.result, t.wire)) (seqStep (t0At (.init .host 2) [.err busError]))
      = some (.idle, .built, .err (.initializationFailed (.transportError busError)),
          [{ addr := 0x3C, bytes := [0x00, 0xA8, 0x7F], answer := .err busError }]) := by decide
theorem test_build_walk_ends :
    get (fun t => (t.seq, t.bstate, t.result)) (seqStep { t0At (.init .build 14) [.ok] with bstate := .configured })
      = some (.idle, .built, .ok) := by decide
theorem test_flush :
    get (fun t => (t.seq, t.result)) (exec .flush { t0 with result := .ok }) = some (.flush 0 .page, .none) := by decide
theorem test_flush_last_chunk :
    get (fun t => (t.seq, t.wire.map WireEntry.bytes))
        (seqStep { t0At (.flush 0 (.data 124)) [.ok] with fb := [(127, 0x01), (128, 0x80)] })
      = some (.flush 1 .page, [[0x40, 0x00, 0x00, 0x00, 0x01]]) := by decide
theorem test_flush_failure :
    get (fun t => (t.seq, t.bstate, t.result, t.wire.map WireEntry.bytes)) (seqStep (t0At (.flush 1 .colHi) [.err busError]))
      = some (.idle, .built, .err (.transportError busError), [[0x00, 0x10]]) := by decide
theorem test_flush_overflow :
    get (fun t => (t.result, t.wire)) (seqStep { t0With 32 16 [.ok] with seq := .flush 0 (.data 0) })
      = some (.err (.payloadOverflow 32), []) := by decide
theorem test_cancel :
    get (fun t => (t.seq, t.result, t.bstate, t.fb)) (exec .cancel { t0At (.flush 3 (.data 62)) [] with fb := [(0, 0xFF)] })
      = some (.idle, .cancelled, .built, [(0, 0xFF)]) := by decide
theorem test_cancel_sync :
    refusal (exec .cancel { t0At (.flush 0 .page) [] with params := { t0.params with binding := .sync } })
      = some (.notAdmitted .cancel) := by decide
theorem test_drop :
    get (fun t => (t.fb, t.bstate, t.addr, t.busPresent)) (exec .drop { t0 with fb := [(133, 0x04)], addr := 0x3D })
      = some ([], .unconfigured, 0x3C, false) := by decide
theorem test_drop_busy :
    get (fun t => (t.seq, t.result, t.wire.length)) (exec .drop { t0At (.flush 0 .colLo) [] with
        wire := [{ addr := 0x3C, bytes := [0x00, 0xB0], answer := .ok }] }) = some (.idle, .none, 1) := by decide

/-! Witnesses: for each statement with hypotheses, a concrete state and operands that meet all of them together, at the boundary of
each clause's range. -/

/-- A state of the invariant, at a position that fits its `BSTATE`. -/
theorem inv_of {s : State} (h : (decide s.params.legal && Memory.wf s.fb && s.busMatchesBState && s.seqMatchesBState
      && s.busyHasNoResult && s.stageWf && s.wire.all (entryFits s.params) && decide (s.wireBase ≤ s.wire.length)
      && Cells.rising 0 s.ctl.ram) = true) : s.Inv := by
  simp only [Bool.and_eq_true, decide_eq_true_eq, List.all_eq_true] at h
  obtain ⟨⟨⟨⟨⟨⟨⟨⟨h1, h2⟩, h3⟩, h4⟩, h5⟩, h6⟩, h7⟩, h8⟩, h9⟩ := h
  exact ⟨h1, h2, h3, h4, h5, h6, h7, h8, h9⟩

/-- A walk of BUILD about to send its first frame, with a call that waits. -/
def building : State :=
  { t0At (.init .build 0) [.ok] with bstate := .configured, port := [⟨.whenIdle, .control 0x40⟩] }

/-- A FLUSH in its DATA phase, at the last chunk of the last page; the call waits. -/
def flushing : State := { t0At (.flush 15 (.data 124)) [.ok] with port := [⟨.after 1, .control 0x40⟩] }

theorem test_meets_DecodeOfEncodeIsCanonical :
    ∃ i : Instr, i.wf = true ∧ (∀ c, i ≠ .columnLow c) ∧ ∀ c, i ≠ .columnHigh c :=
  ⟨.startLine 127, by decide, nofun, nofun⟩
theorem test_meets_CommandBytesOfDecodedCommand : ∃ bytes i, decode (.command bytes) = .instr i :=
  ⟨[0x0F], .columnLow 15, by decide⟩
theorem test_meets_CatalogEntriesAreDistinct :
    (∃ i j : Instr, i.wf = true ∧ j.wf = true ∧ commandBytes i ≠ [] ∧ commandBytes i = commandBytes j)
      ∧ ∃ c d : Byte, commandBytes (.columnLow c) = commandBytes (.columnLow d)
          ∧ commandBytes (.columnHigh c) = commandBytes (.columnHigh d) :=
  ⟨⟨.columnLow 15, .columnLow 127, by decide⟩, ⟨127, 127, by decide⟩⟩
theorem test_meets_FirstBytesAreTheOpcodeMap :
    (∃ (i : Instr) (b : Byte) (rest : List Byte), i.wf = true ∧ commandBytes i = b :: rest)
      ∧ ∃ b : Byte, ¬ (b.toNat < 0x20 ∨ (0x40 ≤ b.toNat ∧ b.toNat < 0x80) ∨ (0xB0 ≤ b.toNat ∧ b.toNat < 0xC0)
          ∨ b ∈ [0x81, 0xA0, 0xA1, 0xA4, 0xA5, 0xA6, 0xA7, 0xA8, 0xAD, 0xAE, 0xAF, 0xC0, 0xC8, 0xD3, 0xD5, 0xD9, 0xDB, 0xDC,
                Config.opComPins]) :=
  ⟨⟨.columnHigh 127, 0x17, [], by decide⟩, ⟨0x80, by decide⟩⟩
theorem test_meets_HostSelectors : (∃ sel : BitVec 4, 9 ≤ sel.toNat) ∧ 9 ≤ (15 : BitVec 4).toNat := ⟨⟨9, by decide⟩, by decide⟩

theorem test_meets_StepRunsTheDecodedCall :
    (∃ (s : State) (c : Call) (rest : List Call) (i : Instr),
        s.port = c :: rest ∧ s.busy = false ∧ c.timing = .whenIdle ∧ decode c.request = .instr i)
      ∧ ∃ (s : State) (c : Call) (rest : List Call) (i : Instr),
        s.port = c :: rest ∧ s.busy = true ∧ c.timing = .after 0 ∧ decode c.request = .instr i :=
  ⟨⟨{ t0 with port := [⟨.whenIdle, .host 3 0 0 0 false⟩] }, _, _, .flush, rfl, rfl, rfl, by decide⟩,
    ⟨{ flushing with port := [⟨.after 0, .host 7 0 0 0 false⟩] }, _, _, .cancel, rfl, rfl, rfl, by decide⟩⟩
theorem test_meets_StepOfTheSequencer :
    (∃ s : State, s.port = [] ∧ s.busy = true) ∧ (∃ (s : State) (r : Request) (rest : List Call), s.port = ⟨.whenIdle, r⟩ :: rest ∧ s.busy = true)
      ∧ (∃ (s : State) (r : Request) (n : Nat) (rest : List Call), s.port = ⟨.after (n + 1), r⟩ :: rest ∧ s.busy = true)
      ∧ ∃ s : State, s.port = [] ∧ s.busy = false :=
  ⟨⟨t0At (.init .host 14) [], rfl, rfl⟩, ⟨building, _, _, rfl, rfl⟩, ⟨flushing, _, 0, _, rfl, rfl⟩, ⟨t0, rfl, rfl⟩⟩
theorem test_meets_StartLineShortCommand :
    (63 : Byte).toNat < 64 ∧ 64 ≤ (64 : Byte).toNat ∧ (∃ a b : Byte, a.toNat < 64 ∧ b.toNat < 64 ∧ (0x40 : Byte) ||| a = 0x40 ||| b)
      ∧ flushFrame t0 0 .colLo = some (t0.params.ctrlCmd.byte, [0x00]) :=
  ⟨by decide, by decide, ⟨63, 63, by decide⟩, rfl⟩

/-- SET_PIXEL's two ranges, at their boundaries: the corners of the display, and the nearest points outside it. -/
theorem test_meets_SetPixelWritesOneBit :
    (t0.seq = .idle ∧ t0.bstate = .built ∧ Memory.wf t0.fb = true)
      ∧ (0 ≤ (0 : Coord).toInt ∧ (0 : Coord).toInt ≤ 127 ∧ 0 ≤ (127 : Coord).toInt ∧ (127 : Coord).toInt ≤ 127)
      ∧ ¬ (0 ≤ (128 : Coord).toInt ∧ (128 : Coord).toInt ≤ 127 ∧ 0 ≤ (0 : Coord).toInt ∧ (0 : Coord).toInt ≤ 127)
      ∧ ¬ (0 ≤ (0 : Coord).toInt ∧ (0 : Coord).toInt ≤ 127 ∧ 0 ≤ (-1 : Coord).toInt ∧ (-1 : Coord).toInt ≤ 127) :=
  ⟨by decide, by simp, by simp, by simp⟩
theorem test_meets_PixelMappingIsBijective :
    pixelInRange 0 0 = true ∧ pixelInRange 127 127 = true ∧ (∃ i b, i < 2048 ∧ b < 8) ∧ 2047 < 2048 ∧ 7 < 8 :=
  ⟨by decide, by decide, ⟨0, 0, by decide⟩, by decide, by decide⟩
theorem test_meets_PixelAfterSetPixel :
    t0.seq = .idle ∧ t0.bstate = .built ∧ Memory.wf t0.fb = true ∧ pixelInRange 127 7 = true ∧ pixelInRange 127 8 = true
      ∧ ((127, 8) : Coord × Coord) ≠ (127, 7) := by decide
theorem test_meets_SetPixelIdempotentAndCommutes :
    t0.seq = .idle ∧ t0.bstate = .built ∧ Memory.wf t0.fb = true ∧ ((127, 8) : Coord × Coord) ≠ (127, 7) := by decide
theorem test_meets_ClearFillsFramebuffer :
    t0.seq = .idle ∧ t0.bstate = .built ∧ 2047 < 2048 ∧ pixelInRange 127 127 = true := by decide
theorem test_meets_AsBytesReturnsFramebuffer : t0.seq = .idle ∧ t0.bstate = .built ∧ 2047 < 2048 := by decide
theorem test_meets_AdmissionTable :
    (t0Reset.seq = .idle ∧ (t0Reset.bstate = .unconfigured ∨ t0Reset.bstate = .configured))
      ∧ ¬ (t0.seq = .idle ∧ (t0.bstate = .unconfigured ∨ t0.bstate = .configured))
      ∧ (t0.seq = .idle ∧ t0.bstate = .built) ∧ ¬ (flushing.seq = .idle ∧ flushing.bstate = .built)
      ∧ (flushing.seq ≠ .idle ∧ flushing.params.binding = .nonblocking)
      ∧ ¬ (t0.seq ≠ .idle ∧ t0.params.binding = .nonblocking) := by decide

theorem test_meets_EmitSendsOneFrame :
    (t0With 32 2 []).params.stageCap < 1 + [(0x81 : Byte), 0x2F].length
      ∧ 1 + [(0x81 : Byte), 0x2F].length ≤ (t0With 32 3 [.ok]).params.stageCap := by decide
theorem test_meets_SendCommandSendsOneFrame :
    ∀ cap ∈ [2, 3], ∀ s ∈ [t0With 3 cap [.ok], t0With 3 cap [.err busError]],
      s.seq = .idle ∧ s.bstate = .built ∧ 1 ≤ [(0x81 : Byte), 0x2F].length ∧ 1 + [(0x81 : Byte), 0x2F].length ≤ s.params.tmax := by
  decide
theorem test_meets_SendCommandRefusals :
    t0.seq = .idle ∧ t0.bstate = .built ∧ [(0 : Byte), 0, 0] ≠ [] ∧ (t0With 3 3 []).params.tmax < 1 + [(0 : Byte), 0, 0].length := by
  decide
theorem test_meets_SendDataSendsTheData :
    (t0With 4 4 [.ok, .ok]).seq = .idle ∧ (t0With 4 4 [.ok, .ok]).bstate = .built ∧ (t0With 4 4 [.ok, .ok]).params.legal
      ∧ get State.ret (exec (.sendData [1, 2, 3, 4]) (t0With 4 4 [.ok, .ok])) = some (.framer .ok)
      ∧ get State.ret (exec (.sendData []) t0) = some (.framer .ok)
      ∧ ∀ data ∈ ([[], [1], [1, 2, 3], [1, 2, 3, 4]] : List (List Byte)),
          let s := t0With 4 4 (List.replicate ((data.length + (4 - 1) - 1) / (4 - 1)) .ok ++ [.err busError])
          1 + min (s.params.tmax - 1) data.length ≤ s.params.stageCap
            ∧ get (fun t => (t.ret, t.answers)) (exec (.sendData data) s) = some (.framer .ok, [.err busError]) := by decide
theorem test_meets_SendDataStopsAtFirstFailure :
    (t0With 4 4 [.ok, .err busError]).seq = .idle ∧ (t0With 4 4 [.ok, .err busError]).bstate = .built
      ∧ (t0With 4 4 [.ok, .err busError]).params.legal ∧ (t0With 4 3 []).params.legal
      ∧ get State.ret (exec (.sendData [1, 2, 3, 4]) (t0With 4 4 [.ok, .err busError])) = some (.framer (.err (.transportError busError)))
      ∧ get State.ret (exec (.sendData [1, 2, 3, 4]) (t0With 4 3 [])) = some (.framer (.err (.payloadOverflow 4))) := by decide
/-- Well configured at the boundary `TMAX = STAGE_CAP = 3`, with each of the three ends already there from before. -/
theorem test_meets_NoOverflowWhenWellConfigured :
    ∀ r ∈ [Result.err (.payloadOverflow 5), .err (.initializationFailed (.payloadOverflow 5))],
      let s := { t0With 3 3 [] with result := r, ret := .framer (.err (.payloadOverflow 5)) }
      s.params.legal ∧ s.params.wellConfigured ∧ get State.result (step s) = some r
        ∧ get State.ret (step s) = some (.framer (.err (.payloadOverflow 5))) := by decide

/-- Frame 1 has 3 bytes: it fits 3 and not 2; the walk's last frame and the one before it; both answers. -/
theorem test_meets_InitializeAndItsWalkSteps :
    (t0.seq = .idle ∧ t0.bstate = .built)
      ∧ ({ t0With 32 2 [] with seq := Seq.init .host 1 } : State).params.stageCap < 1 + (initCmd t0.cfg 1).length
      ∧ 1 + (initCmd t0.cfg 1).length ≤ (t0With 32 3 []).params.stageCap
      ∧ ((t0At (.init .build 14) [.err busError]).seq = .init .build 14 ∧ (t0At (.init .build 14) [.err busError]).nextAnswer = .err busError)
      ∧ (t0At (.init .host 13) [.ok]).nextAnswer = .ok ∧ (14 : Fin 15).val = 14 ∧ (13 : Fin 15).val + 1 < 15 := by decide
theorem test_meets_InitWalkSendsFifteenFrames :
    let s := { t0With 3 3 (List.replicate 15 .ok) with seq := Seq.init .build 0, bstate := .configured }
    s.seq = .init .build 0 ∧ s.port = [] ∧ 3 ≤ s.params.stageCap ∧ s.answers = List.replicate 15 .ok ++ [] := by decide
theorem test_meets_InitWalkStopsAtFirstFailure :
    (∀ k ∈ [(0 : Fin 15), 14],
      let s := { t0With 3 3 (List.replicate k.val .ok ++ [.err busError]) with seq := Seq.init .host 0 }
      s.seq = .init .host 0 ∧ s.port = [] ∧ (∀ j < k, 1 + (initCmd s.cfg j).length ≤ s.params.stageCap)
        ∧ 1 + (initCmd s.cfg k).length ≤ s.params.stageCap ∧ s.answers = List.replicate k.val .ok ++ .err busError :: [])
    ∧ ∀ k ∈ [(0 : Fin 15), 1],
      let s := { t0With 3 (k.val + 1) (List.replicate k.val .ok) with seq := Seq.init .build 0, bstate := .configured }
      s.seq = .init .build 0 ∧ s.port = [] ∧ (∀ j < k, 1 + (initCmd s.cfg j).length ≤ s.params.stageCap)
        ∧ s.params.stageCap < 1 + (initCmd s.cfg k).length ∧ s.answers = List.replicate k.val .ok ++ [] := by decide

/-- Every phase, both answers; a chunk that ends before, and one that ends at, the page's last byte; the last page; a frame that fits
`STAGE_CAP` exactly, and one that is a byte too long. -/
theorem test_meets_FlushAndItsWalkSteps :
    (t0.seq = .idle ∧ t0.bstate = .built)
      ∧ (∀ ph ∈ [Phase.page, .colLo, .colHi, .data 0, .data 124], ∀ a ∈ [Answer.ok, .err busError],
          (t0At (.flush 15 ph) [a]).seq = .flush 15 ph ∧ (t0At (.flush 15 ph) [a]).nextAnswer = a)
      ∧ 1 + min (32 - 1) (128 - 62) ≤ (t0With 32 32 []).params.stageCap
      ∧ (t0With 32 31 []).params.stageCap < 1 + min (32 - 1) (128 - 62)
      ∧ 93 + min (32 - 1) (128 - 93) < 128 ∧ 124 + min (32 - 1) (128 - 124) = 128 ∧ (14 : Fin 16).val + 1 < 16 := by decide
theorem test_meets_FlushStopsAtFirstFailure :
    (∀ s ∈ [t0At (.flush 0 .page) [.err busError], { t0With 3 1 [] with seq := Seq.flush 0 .page }],
        s.seq = .flush 0 .page ∧ s.port = [] ∧ s.result = .none ∧ s.params.legal)
      ∧ get State.result (runSteps 1 (t0At (.flush 0 .page) [.err busError])) = some (.err (.transportError busError))
      ∧ get State.result (runSteps 2 { t0With 3 1 [] with seq := Seq.flush 0 .page }) = some (.err (.payloadOverflow 2)) := by
  decide
/-- The shortest FLUSH there is: 64 frames, one data frame a page, at the least `TMAX` for which that is so. -/
theorem test_meets_FlushThatEndsOkSentTheFramebuffer :
    let s := { t0With 129 129 (List.replicate 64 .ok) with seq := Seq.flush 0 .page }
    s.seq = .flush 0 .page ∧ s.port = [] ∧ s.result = .none ∧ s.params.legal ∧ get State.result (runSteps 64 s) = some .ok :=
  ⟨rfl, rfl, rfl, by decide, by decide +kernel⟩
theorem test_meets_FlushSendsTheFramebuffer :
    let s := { t0With 200 129 (List.replicate 64 .ok) with seq := Seq.flush 0 .page }
    s.seq = .flush 0 .page ∧ s.port = [] ∧ s.params.legal ∧ 1 + min (s.params.tmax - 1) 128 ≤ s.params.stageCap
      ∧ s.answers = List.replicate (16 * (3 + framesPerPage (s.params.tmax - 1))) .ok ++ [] :=
  ⟨rfl, rfl, by decide, by decide, rfl⟩
theorem test_meets_SequencerNeverWritesFramebuffer : (get State.seq (seqStep (t0At (.flush 0 .page) [.ok]))).isSome := by decide

/-- `n` cells of the controller's RAM that hold `0x00`. -/
def zeros (n : Nat) : List Host.Cell := (List.range' 0 n).map fun i => (i, 0)

/-- A FLUSH at its last chunk, with everything before it mirrored: the display is blank and the controller's RAM holds zeros. -/
def mirroredFlush : State :=
  { t0At (.flush 15 (.data 124)) [.ok] with
    ctl := { Controller.unknown with ram := zeros 2044, page := some 15, colLo := some 12, colHi := some 7 } }

theorem mirroredFlush_inv : mirroredFlush.Inv where
  legal := by decide
  fb := rfl
  bus := rfl
  seq := rfl
  result := rfl
  stage := rfl
  wire := nofun
  base := Nat.le_refl 0
  ram := Cells.rising_range' 0 2044 0 (by decide)

theorem mirroredFlush_mirrors : mirroredFlush.FlushMirrors := by
  refine ⟨fun i hi => ?_, rfl, rfl, rfl⟩
  exact Cells.lookup_range' 0 2044 0 i (Nat.zero_le i) (by simpa using hi)

theorem test_meets_FlushMirrorsTheFramebuffer :
    mirroredFlush.Inv ∧ mirroredFlush.FlushMirrors ∧ get State.result (step mirroredFlush) = some .ok
      ∧ mirroredFlush.seq = .flush 15 (.data 124) :=
  ⟨mirroredFlush_inv, mirroredFlush_mirrors, rfl, rfl⟩

theorem test_meets_ConnectSuppliesTheBus :
    (t0Reset.seq = .idle ∧ t0Reset.bstate = .unconfigured) ∧ t0Configured.seq = .idle ∧ t0Configured.bstate = .configured := by
  decide
theorem test_meets_BuildFailsOrStartsTheWalk :
    (t0Reset.seq = .idle ∧ t0Reset.bstate = .unconfigured ∧ t0Reset.busPresent = false)
      ∧ t0Configured.seq = .idle ∧ t0Configured.bstate = .configured ∧ t0Configured.busPresent = true := by decide

/-- A step for each change of `BSTATE`, from states of the invariant. -/
theorem test_meets_BuilderTransitions :
    (building.Inv ∧ get State.bstate (step building) = some .configured)
      ∧ (∃ s : State, s.Inv ∧ s.bstate = .built ∧ get State.bstate (step s) = some .unconfigured)
      ∧ (∃ s : State, s.Inv ∧ s.bstate = .unconfigured ∧ get State.bstate (step s) = some .configured)
      ∧ (∃ s : State, s.Inv ∧ s.bstate = .unconfigured ∧ get State.bstate (step s) = some (.failed .noBusConnected))
      ∧ (∃ s : State, s.Inv ∧ s.bstate = .configured ∧ get State.bstate (step s) = some .built)
      ∧ ∃ s : State, s.Inv ∧ s.bstate = .configured ∧ get State.bstate (step s) = some (.failed .initializationFailed) :=
  ⟨⟨inv_of (by decide), by decide⟩,
    ⟨{ t0 with port := [⟨.whenIdle, .host 8 0 0 0 false⟩] }, inv_of (by decide), rfl, by decide⟩,
    ⟨{ t0Reset with port := [⟨.whenIdle, .host 0 0x3C 0 0 false⟩] }, inv_of (by decide), rfl, by decide⟩,
    ⟨{ t0Reset with port := [⟨.whenIdle, .host 1 0 0 0 false⟩] }, inv_of (by decide), rfl, by decide⟩,
    ⟨{ building with seq := .init .build 14 }, inv_of (by decide), rfl, by decide⟩,
    ⟨{ building with answers := [.err busError] }, inv_of (by decide), rfl, by decide⟩⟩
theorem test_meets_StepKeepsBootTrace : building.Inv ∧ building.BootTrace ∧ (get State.seq (step building)).isSome :=
  ⟨inv_of (by decide), ⟨rfl, rfl⟩, by decide⟩

theorem test_meets_AbortEffect : building.seq = .init .build 0 ∧ ∀ k, flushing.seq ≠ .init .build k := ⟨rfl, nofun⟩
/-- A FLUSH failing in its first and in its last page, a walk at both ends, and both framer procedures. -/
theorem test_meets_FailureForgetsTheController :
    (∀ q ∈ [Seq.flush 0 .page, .flush 15 (.data 127), .init .host 0, .init .build 14],
      (t0At q [.err busError]).result = .none
        ∧ (get (fun t => decide (t.result = .none)) (seqStep (t0At q [.err busError]))) = some false)
      ∧ ∀ i ∈ [Instr.sendCommand [0xAE], .sendData [1]],
          get State.ret (exec i (t0With 32 32 [.err busError])) = some (.framer (.err (.transportError busError))) := by decide
theorem test_meets_FailureForgetsTheController_below :
    let s := { t0At (.flush 15 .page) [.ok] with ctl := { Controller.unknown with reliance := .below 128 } }
    s.ctl.reliance = .below 128 ∧ (get State.seq (step s)).isSome := by decide
theorem test_meets_CancelEffect :
    (building.params.binding = .nonblocking ∧ building.seq ≠ .idle ∧ ∃ k, building.seq = .init .build k)
      ∧ flushing.params.binding = .nonblocking ∧ flushing.seq ≠ .idle ∧ ∀ k, flushing.seq ≠ .init .build k :=
  ⟨⟨rfl, nofun, 0, rfl⟩, rfl, nofun, nofun⟩
theorem test_meets_CancelEffect_after :
    let s := { flushing with ctl := { Controller.unknown with reliance := .unknown } }
    s.ctl.reliance = .unknown ∧ get State.seq (step s) = some .idle := by decide
theorem test_meets_DropResetsEverything : t0.seq = .idle ∧ flushing.seq ≠ .idle := by decide
theorem test_meets_ResetValues : (get State.seq (exec .drop flushing)).isSome := by decide
theorem test_meets_StepKeepsInvariant : flushing.Inv ∧ get State.seq (step flushing) = some .idle :=
  ⟨inv_of (by decide), by decide⟩
theorem test_meets_ConfigurationIsConstant : get State.cfg (step flushing) = some flushing.cfg := by decide
theorem test_meets_WireOnlyGrows :
    get (fun t => t.wire.length) (step flushing) = some 1 ∧ get (fun t => t.wire.length) (seqStep flushing) = some 1 := by decide
theorem test_meets_FramebufferIsFrozenWhileBusy : flushing.busy = true ∧ (get State.fb (step flushing)).isSome := by decide
theorem test_meets_BindingChangesOnlyCancel :
    Instr.flush ≠ .cancel ∧ (get State.seq (exec .flush t0)).isSome ∧ (get State.seq (seqStep flushing)).isSome := by decide
theorem test_meets_ObserverChangesNothing : (get State.observed (step flushing)).isSome := by decide

end Sys2Proof.Tests
end

namespace Sys2Proof.Machine

/-! Which move a step makes (00_scope R14). -/

theorem State.setPort_self {s : State} {q : List Call} (h : s.port = q) : s.setPort q = s := by
  subst h
  rfl

theorem nextMove_due {s : State} {c : Call} {rest : List Call} (hp : s.port = c :: rest)
    (hd : s.busy = false ∨ c.timing = .after 0) : nextMove s = .call c.request rest := by
  rcases hd with hb | ht
  · simp [nextMove, hp, hb]
  · cases hb : s.busy <;> simp [nextMove, hp, hb, ht]

theorem runRequest_of_decode {r : Request} {i : Instr} (hd : decode r = .instr i) (s : State) :
    runRequest r s = exec i s := by
  simp [runRequest, hd]

theorem step_of_call {s : State} {r : Request} {q : List Call} (h : nextMove s = .call r q) :
    step s = runRequest r (s.setPort q) := by
  simp [step, h]

theorem step_of_sequencer {s : State} {q : List Call} (h : nextMove s = .sequencer q) :
    step s = seqStep (s.setPort q) := by
  simp [step, h]

/-- Settles O7: a due call is the next move, and a step at a call runs the request's instruction. -/
theorem stepRunsTheDecodedCall : Obligations.StepRunsTheDecodedCall := by
  intro s c rest i hp hdue hdec
  rw [step_of_call (nextMove_due hp hdue), runRequest_of_decode hdec]
  rfl

/-- Settles O8: in each of the four cases the next move is known, and the port it leaves is the one stated. -/
theorem stepOfTheSequencer : Obligations.StepOfTheSequencer := by
  refine ⟨fun s hp hb => ?noCall, fun s r rest hp hb => ?waits, fun s r n rest hp hb => ?later, fun s hp hb => ?idle⟩
  case noCall =>
    have hm : nextMove s = .sequencer [] := by simp [nextMove, hp, hb]
    rw [step_of_sequencer hm, State.setPort_self hp]
  case waits =>
    have hm : nextMove s = .sequencer (⟨.whenIdle, r⟩ :: rest) := by simp [nextMove, hp, hb]
    rw [step_of_sequencer hm, State.setPort_self hp]
  case later =>
    have hm : nextMove s = .sequencer (⟨.after n, r⟩ :: rest) := by simp [nextMove, hp, hb]
    rw [step_of_sequencer hm]
    rfl
  case idle =>
    have hm : nextMove s = .wait := by simp [nextMove, hp, hb]
    simp [step, hm]

end Sys2Proof.Machine

namespace Sys2Proof.Machine

/-! What `emit` leaves unchanged, whether or not the frame fits (42_transport_framer R171). -/

section EmitFrame

variable (ctrl : Byte) (payload : List Byte) (s : State)

/-- What a whole frame sent keeps, `emit` keeps. -/
theorem emit_keeps {P : State → Prop} (hs : P s)
    (hsend : 1 + payload.length ≤ s.params.stageCap → P (s.sendFrame (ctrl :: payload))) :
    P (emit ctrl payload s).1 := by
  rcases emit_cases ctrl payload s with ⟨_, he⟩ | ⟨hfit, he⟩
  · rw [he]; exact hs
  · rw [he]; exact hsend hfit

@[simp] theorem emit_params : (emit ctrl payload s).1.params = s.params :=
  emit_keeps (P := fun u => u.params = s.params) ctrl payload s rfl (by simp)

@[simp] theorem emit_seq : (emit ctrl payload s).1.seq = s.seq :=
  emit_keeps (P := fun u => u.seq = s.seq) ctrl payload s rfl (by simp)

@[simp] theorem emit_result : (emit ctrl payload s).1.result = s.result :=
  emit_keeps (P := fun u => u.result = s.result) ctrl payload s rfl (by simp)

@[simp] theorem emit_ret : (emit ctrl payload s).1.ret = s.ret :=
  emit_keeps (P := fun u => u.ret = s.ret) ctrl payload s rfl (by simp)

end EmitFrame

/-! The frames of the walks are within `TMAX` (43_initialize R191, 44_flush R212). -/

theorem initCmd_fits {p : Params} (hp : p.legal) (cfg : Straps) (k : Fin 15) : 1 + (initCmd cfg k).length ≤ p.tmax := by
  have hlen := (initCmd_length cfg k).2
  have htmax := hp.1
  omega

theorem flushFrame_fits {s : State} (hp : s.params.legal) {p : Fin 16} {ph : Phase} {ctrl : Byte} {payload : List Byte}
    (hf : flushFrame s p ph = some (ctrl, payload)) : 1 + payload.length ≤ s.params.tmax := by
  have htmax := hp.1
  cases ph with
  | page => cases hf; simp only [Catalog.pageAddress, List.length_singleton]; omega
  | colLo => cases hf; simp only [Catalog.columnLow, List.length_singleton]; omega
  | colHi => cases hf; simp only [Catalog.columnHigh, List.length_singleton]; omega
  | data o =>
    rw [flushFrame_data] at hf
    cases hf
    rw [fbBytes_length]
    omega

/-! The invariant is kept by each update of the state (10_state R35). -/

namespace State.Inv

variable {s : State}

theorem setPort (h : s.Inv) (q : List Call) : (s.setPort q).Inv := { h with }

theorem setRet (h : s.Inv) (r : Ret) : { s with ret := r }.Inv := { h with }

theorem setFb (h : s.Inv) {fb : List Host.Cell} (hfb : Memory.wf fb = true) : (s.setFb fb).Inv :=
  { h with fb := hfb }

/-- Whoever is busy has a bus (R25, R35 b). -/
theorem busPresent_of_busy (h : s.Inv) (hb : s.busy = true) : s.busPresent = true := by
  have hbus := h.bus
  have hseq := h.seq
  rw [State.busy_eq_true] at hb
  rcases hq : s.seq with _ | ⟨_ | _, k⟩ | ⟨p, ph⟩
  · exact absurd hq hb
  all_goals
    simp only [State.seqMatchesBState, hq, beq_iff_eq] at hseq
    simpa [State.busMatchesBState, hseq] using hbus

/-- A frame sent that is within `TMAX` and the staging buffer (R28, R35 d). -/
theorem sendFrame (h : s.Inv) {ctrl : Byte} {payload : List Byte} (ht : 1 + payload.length ≤ s.params.tmax)
    (hc : 1 + payload.length ≤ s.params.stageCap) : (s.sendFrame (ctrl :: payload)).Inv where
  legal := by simpa using h.legal
  fb := by simpa using h.fb
  bus := by simpa [busMatchesBState] using h.bus
  seq := by simpa [seqMatchesBState] using h.seq
  result := by simpa [busyHasNoResult, busy] using h.result
  stage := by
    have hst := h.stage
    simp only [stageWf, Bool.and_eq_true, decide_eq_true_eq] at hst
    simp only [stageWf, sendFrame_stage, sendFrame_stageLen, sendFrame_params, List.length_append, List.length_drop,
      List.length_cons, Bool.and_eq_true, decide_eq_true_eq]
    omega
  wire := by
    intro e he
    rw [sendFrame_params]
    rw [sendFrame_wire, List.mem_append, List.mem_singleton] at he
    rcases he with he | rfl
    · exact h.wire e he
    · simp only [entryFits, List.length_cons, Bool.and_eq_true, decide_eq_true_eq]
      omega
  base := by
    have hbase := h.base
    rw [sendFrame_wireBase, sendFrame_wire, List.length_append]
    omega
  ram := by
    rw [sendFrame_ctl]
    cases s.nextAnswer with
    | ok => exact Controller.rising_receive _ _ h.ram
    | err e => exact h.ram

theorem emit (h : s.Inv) {ctrl : Byte} {payload : List Byte} (ht : 1 + payload.length ≤ s.params.tmax) :
    (emit ctrl payload s).1.Inv :=
  emit_keeps ctrl payload s h (h.sendFrame ht)

theorem split (h : s.Inv) (ctrl : Byte) (data : List Byte) : (split ctrl data s).1.Inv := by
  have htmax := h.legal.1
  refine (splitFrom_keeps (P := fun u => u.Inv ∧ u.params.tmax = s.params.tmax) (tmax := s.params.tmax) (by omega)
    (fun u hu => hu.2) (fun u payload hu _ hlen => ?_) _ data s ⟨h, rfl⟩).1
  obtain ⟨hinv, hu⟩ := hu
  exact ⟨hinv.emit (by omega), by rw [emit_params, hu]⟩

theorem finishFramer {f : State × FrameEnd} (h : f.1.Inv) : (finishFramer f).Inv := by
  obtain ⟨u, _ | c⟩ := f
  · exact h.setRet _
  · exact { h with ram := Controller.rising_fail _ _ h.ram }

/-- The sequencer ends its operation with the session or the builder as it was. -/
theorem toIdle (h : s.Inv) {r : Result} {c : Controller} (hram : Cells.rising 0 c.ram = true) :
    { s with seq := .idle, result := r, ctl := c }.Inv :=
  { h with seq := rfl, result := rfl, ram := hram }

/-- The sequencer stands at another position that fits `BSTATE`. -/
theorem toSeq (h : s.Inv) {q : Seq} (hr : s.result = .none) (hq : { s with seq := q }.seqMatchesBState = true) :
    { s with seq := q }.Inv :=
  { h with seq := hq, result := by simp [busyHasNoResult, hr] }

theorem accept (h : s.Inv) {q : Seq} (hq : { s with seq := q }.seqMatchesBState = true) : (s.accept q).Inv :=
  { h with seq := hq, result := by simp [busyHasNoResult] }

theorem result_none (h : s.Inv) (hb : s.busy = true) : s.result = .none := by
  simpa [busyHasNoResult, hb] using h.result

theorem dropReset (h : s.Inv) : s.dropReset.Inv where
  legal := h.legal
  fb := rfl
  bus := rfl
  seq := rfl
  result := rfl
  stage := by simp [stageWf]
  wire := h.wire
  base := le_rfl
  ram := Controller.rising_afterCancel _ _ h.ram

theorem raiseError (h : s.Inv) (hb : s.busy = true) (e : Error) : (s.raiseError e).Inv :=
  { h with
    bus := by
      have hp := h.busPresent_of_busy hb
      simp only [busMatchesBState, raiseError_bstate, raiseError_busPresent]
      split_ifs
      · exact hp
      · exact h.bus
    seq := rfl
    result := rfl
    ram := Controller.rising_afterFailure _ _ h.ram }

theorem completeInit (h : s.Inv) (hb : s.busy = true) (ctx : Ctx) : (s.completeInit ctx).Inv :=
  { h with
    bus := by
      cases ctx with
      | host => exact h.bus
      | build => exact h.busPresent_of_busy hb
    seq := rfl
    result := rfl }

end State.Inv

theorem State.busy_of_init {s : State} {ctx : Ctx} {k : Fin 15} (hq : s.seq = .init ctx k) : s.busy = true := by
  simp [State.busy, hq]

theorem State.busy_of_flush {s : State} {p : Fin 16} {ph : Phase} (hq : s.seq = .flush p ph) : s.busy = true := by
  simp [State.busy, hq]

/-! The end of a walk's step keeps the invariant: the frame has been dealt with and `SEQ` still stands at it. -/

theorem State.Inv.toInit {s : State} {ctx : Ctx} {k : Fin 15} (h : s.Inv) (hq : s.seq = .init ctx k) (k' : Fin 15) :
    { s with seq := .init ctx k' }.Inv := by
  refine h.toSeq (h.result_none (State.busy_of_init hq)) ?_
  have hseq := h.seq
  cases ctx <;> simpa [State.seqMatchesBState, hq] using hseq

theorem State.Inv.toFlush {s : State} {p : Fin 16} {ph : Phase} (h : s.Inv) (hq : s.seq = .flush p ph) (p' : Fin 16)
    (ph' : Phase) : { s with seq := .flush p' ph' }.Inv := by
  refine h.toSeq (h.result_none (State.busy_of_flush hq)) ?_
  have hseq := h.seq
  simpa [State.seqMatchesBState, hq] using hseq

theorem State.Inv.afterInit {ctx : Ctx} {k : Fin 15} {f : State × FrameEnd} (h : f.1.Inv) (hq : f.1.seq = .init ctx k) :
    (afterInit ctx k f).Inv := by
  obtain ⟨u, _ | c⟩ := f
  · simp only [Machine.afterInit]
    split_ifs
    · exact h.toInit hq _
    · exact h.completeInit (State.busy_of_init hq) ctx
  · exact h.raiseError (State.busy_of_init hq) _

theorem State.Inv.afterPage {s : State} {p : Fin 16} {ph : Phase} (h : s.Inv) (hq : s.seq = .flush p ph) :
    (afterPage p s).Inv := by
  simp only [Machine.afterPage]
  split_ifs
  · exact h.toFlush hq _ _
  · exact h.toIdle h.ram

theorem State.Inv.afterFlush {p : Fin 16} {ph : Phase} {n : Nat} {f : State × FrameEnd} (h : f.1.Inv)
    (hq : f.1.seq = .flush p ph) : (afterFlush p ph n f).Inv := by
  obtain ⟨u, _ | c⟩ := f
  · cases ph with
    | page => exact h.toFlush hq _ _
    | colLo => exact h.toFlush hq _ _
    | colHi => exact h.toFlush hq _ _
    | data o =>
      simp only [Machine.afterFlush]
      split_ifs
      · exact h.toFlush hq _ _
      · exact h.afterPage hq
  · exact h.raiseError (State.busy_of_flush hq) _

theorem SeqChange.inv {s t : State} (h : s.Inv) (hc : SeqChange s t) : t.Inv := by
  cases hc with
  | stayed => exact h
  | initStep ctx k hq => exact (h.emit (initCmd_fits h.legal _ k)).afterInit (by simpa using hq)
  | flushStep p ph ctrl payload hq hf => exact (h.emit (flushFrame_fits h.legal hf)).afterFlush (by simpa using hq)

theorem ExecChange.inv {s t : State} (h : s.Inv) (hc : ExecChange s t) : t.Inv := by
  cases hc with
  | returned b => exact h.setRet _
  | unchanged => exact h
  | drew fb _ hfb => exact h.setFb (hfb h.fb)
  | connected addr hi =>
    obtain ⟨hq, -⟩ := State.builderIdle_iff.mp hi
    exact { h with bus := rfl, seq := by simp [State.seqMatchesBState, hq] }
  | buildFailed hi hb =>
    exact { h with
      bus := by simp [State.busMatchesBState, hb]
      seq := rfl
      result := rfl
      ram := Controller.rising_afterFailure _ _ h.ram }
  | buildStarted hi hb =>
    obtain ⟨-, hst⟩ := State.builderIdle_iff.mp hi
    have hconf : s.bstate = .configured := hst.resolve_left fun hun => by
      simpa [State.busMatchesBState, hun, hb] using h.bus
    exact (h.setFb (Memory.wf_filled _)).accept (by simp [State.seqMatchesBState, hconf])
  | initAccepted hi =>
    obtain ⟨-, hst⟩ := State.sessionIdle_iff.mp hi
    exact h.accept (by simp [State.seqMatchesBState, hst])
  | flushAccepted hi =>
    obtain ⟨-, hst⟩ := State.sessionIdle_iff.mp hi
    exact h.accept (by simp [State.seqMatchesBState, hst])
  | cancelledBuild => exact { h.dropReset with result := rfl }
  | cancelledOperation => exact h.toIdle (Controller.rising_afterCancel _ _ h.ram)
  | dropped => exact h.dropReset
  | commandSent cmd _ _ ht => exact (h.emit ht).finishFramer
  | dataSent data => exact (h.split _ data).finishFramer

/-- Settles O51: every change that an instruction or the sequencer can make keeps the invariant, and none of its fields looks at
the port. -/
theorem stepKeepsInvariant : Obligations.StepKeepsInvariant := fun _ _ h hstep =>
  step_keeps (fun _ q hs => hs.setPort q) (fun _ hs => hs) (fun _ _ hs hc => hc.inv hs) (fun _ _ hs hc => hc.inv hs) h hstep

end Sys2Proof.Machine

namespace Sys2Proof.Machine

/-! PayloadOverflow (60_exceptions R253), and why a well-configured block never raises it (R8, R176): no frame is longer than
`TMAX`, so each fits the staging buffer and ends with the transport's answer. -/

/-- A frame, or a framer procedure, ended in PayloadOverflow. -/
def FrameEnd.Overflow (e : FrameEnd) : Prop := ∃ n, e = .err (.payloadOverflow n)

/-- `RESULT` is PayloadOverflow, plain or as the cause of InitializationFailed. -/
def Result.Overflow (r : Result) : Prop :=
  ∃ n, r = .err (.payloadOverflow n) ∨ r = .err (.initializationFailed (.payloadOverflow n))

/-- A framer procedure's end handed to its caller is PayloadOverflow. -/
def Ret.Overflow (r : Ret) : Prop := ∃ e : FrameEnd, r = .framer e ∧ e.Overflow

theorem Result.not_overflow_none : ¬ Result.none.Overflow := by simp [Result.Overflow]
theorem Result.not_overflow_ok : ¬ Result.ok.Overflow := by simp [Result.Overflow]
theorem Result.not_overflow_cancelled : ¬ Result.cancelled.Overflow := by simp [Result.Overflow]
theorem Result.not_overflow_noBusConnected : ¬ (Result.err .noBusConnected).Overflow := by simp [Result.Overflow]

/-- The plain error of a FLUSH overflows only if its frame did (R215). -/
theorem Result.Overflow.of_toError {c : Cause} (h : (Result.err c.toError).Overflow) : (FrameEnd.err c).Overflow := by
  obtain ⟨n, hn⟩ := h
  cases c with
  | payloadOverflow m => exact ⟨m, rfl⟩
  | transportError e => simp [Cause.toError] at hn

/-- InitializationFailed wraps PayloadOverflow only if its frame overflowed (R252). -/
theorem Result.Overflow.of_initializationFailed {c : Cause} (h : (Result.err (.initializationFailed c)).Overflow) :
    (FrameEnd.err c).Overflow := by
  simpa [Result.Overflow, FrameEnd.Overflow] using h

theorem Ret.not_overflow_nothing : ¬ Ret.nothing.Overflow := by simp [Ret.Overflow]
theorem Ret.not_overflow_bytes (b : List Byte) : ¬ (Ret.bytes b).Overflow := by simp [Ret.Overflow]
theorem Ret.not_overflow_framer {e : FrameEnd} (h : ¬ e.Overflow) : ¬ (Ret.framer e).Overflow := by
  simpa [Ret.Overflow] using h

/-- From `s` to `t`, what was returned or recorded is as it was, or is no PayloadOverflow. -/
structure State.NoNewOverflow (s t : State) : Prop where
  result : t.result = s.result ∨ ¬ t.result.Overflow
  ret : t.ret = s.ret ∨ ¬ t.ret.Overflow

theorem not_overflow_answerEnd (a : Answer) : ¬ (answerEnd a).Overflow := by
  rintro ⟨n, hn⟩
  cases a <;> cases hn

/-- A frame within the staging buffer does not overflow (R171). -/
theorem emit_not_overflow {ctrl : Byte} {payload : List Byte} {s : State} (h : 1 + payload.length ≤ s.params.stageCap) :
    ¬ (emit ctrl payload s).2.Overflow := by
  rw [emit_fits h]
  exact not_overflow_answerEnd _

/-- No chunk of SPLIT is longer than `TMAX`, so none overflows (R174, R176). -/
theorem splitFrom_not_overflow {ctrl : Byte} (fuel : Nat) (data : List Byte) {s : State} (hl : s.params.legal)
    (hw : s.params.wellConfigured) : ¬ (splitFrom ctrl fuel data s).2.Overflow := by
  induction fuel generalizing data s with
  | zero => rintro ⟨n, hn⟩; cases hn
  | succ fuel ih =>
    cases data with
    | nil => rintro ⟨n, hn⟩; cases hn
    | cons b rest =>
      have hfit : 1 + ((b :: rest).take (s.params.tmax - 1)).length ≤ s.params.stageCap := by
        have htake := List.length_take_le (s.params.tmax - 1) (b :: rest)
        have htmax := hl.1
        exact le_trans (by omega) hw
      have hend := emit_not_overflow (ctrl := ctrl) hfit
      have hpar := emit_params ctrl ((b :: rest).take (s.params.tmax - 1)) s
      simp only [splitFrom]
      split
      · next t he =>
        rw [he] at hpar
        exact ih _ (hpar ▸ hl) (hpar ▸ hw)
      · next t c he =>
        rw [he] at hend
        exact hend

/-! What SPLIT and the end of a framer procedure leave unchanged. -/

@[simp] theorem split_result (ctrl : Byte) (data : List Byte) (s : State) : (split ctrl data s).1.result = s.result :=
  splitFrom_keeps' (P := fun u => u.result = s.result) (fun u payload hu => by rw [emit_result, hu]) _ data s rfl

@[simp] theorem finishFramer_result (f : State × FrameEnd) : (finishFramer f).result = f.1.result := by
  obtain ⟨u, _ | c⟩ := f <;> rfl

@[simp] theorem finishFramer_ret (f : State × FrameEnd) : (finishFramer f).ret = .framer f.2 := by
  obtain ⟨u, _ | c⟩ := f <;> rfl

theorem State.NoNewOverflow.finishFramer {s : State} {f : State × FrameEnd} (hr : f.1.result = s.result)
    (hf : ¬ f.2.Overflow) : s.NoNewOverflow (finishFramer f) :=
  ⟨.inl (by rw [finishFramer_result, hr]), .inr (by rw [finishFramer_ret]; exact Ret.not_overflow_framer hf)⟩

/-- The end of an initialise walk's step writes `RESULT` only, and PayloadOverflow only when the frame overflowed. -/
theorem State.NoNewOverflow.afterInit {s : State} {ctx : Ctx} {k : Fin 15} {f : State × FrameEnd}
    (hres : f.1.result = s.result) (hret : f.1.ret = s.ret) (hf : ¬ f.2.Overflow) : s.NoNewOverflow (afterInit ctx k f) := by
  obtain ⟨u, _ | c⟩ := f
  · simp only [Machine.afterInit]
    split_ifs
    · exact ⟨.inl hres, .inl hret⟩
    · exact ⟨.inr Result.not_overflow_ok, .inl hret⟩
  · exact ⟨.inr fun h => hf (Result.Overflow.of_initializationFailed h), .inl hret⟩

theorem State.NoNewOverflow.afterFlush {s : State} {p : Fin 16} {ph : Phase} {m : Nat} {f : State × FrameEnd}
    (hres : f.1.result = s.result) (hret : f.1.ret = s.ret) (hf : ¬ f.2.Overflow) :
    s.NoNewOverflow (afterFlush p ph m f) := by
  obtain ⟨u, _ | c⟩ := f
  · cases ph with
    | page => exact ⟨.inl hres, .inl hret⟩
    | colLo => exact ⟨.inl hres, .inl hret⟩
    | colHi => exact ⟨.inl hres, .inl hret⟩
    | data o =>
      simp only [Machine.afterFlush, afterPage]
      split_ifs
      · exact ⟨.inl hres, .inl hret⟩
      · exact ⟨.inl hres, .inl hret⟩
      · exact ⟨.inr Result.not_overflow_ok, .inl hret⟩
  · exact ⟨.inr fun h => hf (Result.Overflow.of_toError h), .inl hret⟩

theorem SeqChange.noNewOverflow {s t : State} (hl : s.params.legal) (hw : s.params.wellConfigured) (h : SeqChange s t) :
    s.NoNewOverflow t := by
  cases h with
  | stayed => exact ⟨.inl rfl, .inl rfl⟩
  | initStep ctx k =>
    exact .afterInit (emit_result _ _ _) (emit_ret _ _ _) (emit_not_overflow ((initCmd_fits hl _ k).trans hw))
  | flushStep p ph ctrl payload _ hf =>
    exact .afterFlush (emit_result _ _ _) (emit_ret _ _ _) (emit_not_overflow ((flushFrame_fits hl hf).trans hw))

theorem ExecChange.noNewOverflow {s t : State} (hl : s.params.legal) (hw : s.params.wellConfigured) (h : ExecChange s t) :
    s.NoNewOverflow t := by
  cases h with
  | returned b => exact ⟨.inl rfl, .inr (Ret.not_overflow_bytes b)⟩
  | unchanged => exact ⟨.inl rfl, .inl rfl⟩
  | drew => exact ⟨.inl rfl, .inl rfl⟩
  | connected => exact ⟨.inl rfl, .inl rfl⟩
  | buildFailed => exact ⟨.inr Result.not_overflow_noBusConnected, .inl rfl⟩
  | buildStarted => exact ⟨.inr Result.not_overflow_none, .inl rfl⟩
  | initAccepted => exact ⟨.inr Result.not_overflow_none, .inl rfl⟩
  | flushAccepted => exact ⟨.inr Result.not_overflow_none, .inl rfl⟩
  | cancelledBuild => exact ⟨.inr Result.not_overflow_cancelled, .inr Ret.not_overflow_nothing⟩
  | cancelledOperation => exact ⟨.inr Result.not_overflow_cancelled, .inl rfl⟩
  | dropped => exact ⟨.inr Result.not_overflow_none, .inr Ret.not_overflow_nothing⟩
  | commandSent cmd _ _ ht => exact .finishFramer (emit_result _ _ _) (emit_not_overflow (ht.trans hw))
  | dataSent data => exact .finishFramer (split_result _ _ _) (splitFrom_not_overflow _ _ hl hw)

theorem step_noNewOverflow {s t : State} (hl : s.params.legal) (hw : s.params.wellConfigured) (h : step s = .next t) :
    s.NoNewOverflow t := by
  rcases step_cases h with ⟨_, port, i, _, _, he⟩ | ⟨port, _, he⟩ | ⟨_, rfl⟩
  · have hn : (s.setPort port).NoNewOverflow t := (exec_change he).noNewOverflow hl hw
    exact ⟨hn.result, hn.ret⟩
  · have hn : (s.setPort port).NoNewOverflow t := (seqStep_change he).noNewOverflow hl hw
    exact ⟨hn.result, hn.ret⟩
  · exact ⟨.inl rfl, .inl rfl⟩

/-- Settles O32: what a step newly records or returns is no PayloadOverflow, since no frame is longer than `TMAX`. -/
theorem noOverflowWhenWellConfigured : Obligations.NoOverflowWhenWellConfigured := by
  intro s t hl hw hstep
  obtain ⟨hres, hret⟩ := step_noNewOverflow hl hw hstep
  refine ⟨fun n hn => ?plain, fun n hn => ?cause, fun n hn => ?framer⟩
  case plain => exact (hres.resolve_right (not_not_intro ⟨n, .inl hn⟩)).symm
  case cause => exact (hres.resolve_right (not_not_intro ⟨n, .inr hn⟩)).symm
  case framer => exact (hret.resolve_right (not_not_intro ⟨_, hn, n, rfl⟩)).symm

end Sys2Proof.Machine

namespace Sys2Proof.Machine

/-! `BINDING` (00_scope R9): every operation but CANCEL commutes with changing it. -/

/-- The same state in another binding. -/
def State.withBinding (s : State) (b : Binding) : State := { s with params := { s.params with binding := b } }

/-- The same outcome, its next state in another binding. -/
def withBindingOut (b : Binding) : Out → Out
  | .next t => .next (t.withBinding b)
  | .fault f => .fault f
  | .refused r => .refused r

/-- The same frame's end, its state in another binding. -/
def withBindingEnd (b : Binding) (f : State × FrameEnd) : State × FrameEnd := (f.1.withBinding b, f.2)

theorem withBindingOut_ite (b : Binding) (c : Prop) [Decidable c] (x y : Out) :
    withBindingOut b (if c then x else y) = if c then withBindingOut b x else withBindingOut b y :=
  apply_ite _ _ _ _

section Binding

variable (s : State) (b : Binding)

@[simp] theorem State.withBinding_cfg : (s.withBinding b).cfg = s.cfg := rfl
@[simp] theorem State.withBinding_seq : (s.withBinding b).seq = s.seq := rfl
@[simp] theorem State.withBinding_tmax : (s.withBinding b).params.tmax = s.params.tmax := rfl
@[simp] theorem State.withBinding_ctrlCmd : (s.withBinding b).params.ctrlCmd = s.params.ctrlCmd := rfl
@[simp] theorem State.withBinding_nextAnswer : (s.withBinding b).nextAnswer = s.nextAnswer := rfl

theorem takeAnswer_withBinding : (s.withBinding b).takeAnswer = s.takeAnswer.withBinding b := by
  simp only [State.takeAnswer, State.withBinding]
  cases s.answers <;> rfl

theorem notify_withBinding (c : ObserverCall) : (s.withBinding b).notify c = (s.notify c).withBinding b := by
  cases h : s.params.observer <;> simp [State.notify, State.withBinding, h]

theorem transportWrite_withBinding (frame : List Byte) :
    (s.withBinding b).transportWrite frame = (s.transportWrite frame).withBinding b := by
  simp only [State.transportWrite, takeAnswer_withBinding]
  rfl

theorem sendFrame_withBinding (frame : List Byte) :
    (s.withBinding b).sendFrame frame = (s.sendFrame frame).withBinding b := by
  have hstage : (s.withBinding b).stageFrame frame = (s.stageFrame frame).withBinding b := rfl
  simp only [State.sendFrame, hstage, notify_withBinding, transportWrite_withBinding, State.withBinding_nextAnswer]

theorem emit_withBinding (ctrl : Byte) (payload : List Byte) :
    emit ctrl payload (s.withBinding b) = withBindingEnd b (emit ctrl payload s) := by
  rcases emit_cases ctrl payload s with ⟨hover, he⟩ | ⟨hfit, he⟩
  · rw [he]; exact emit_overflow hover
  · rw [he, emit_fits (s := s.withBinding b) hfit, sendFrame_withBinding]; rfl

theorem splitFrom_withBinding (ctrl : Byte) (fuel : Nat) (data : List Byte) :
    splitFrom ctrl fuel data (s.withBinding b) = withBindingEnd b (splitFrom ctrl fuel data s) := by
  induction fuel generalizing data s with
  | zero => rfl
  | succ fuel ih =>
    cases data with
    | nil => rfl
    | cons d rest =>
      simp only [splitFrom, State.withBinding_tmax, emit_withBinding]
      rcases emit ctrl ((d :: rest).take (s.params.tmax - 1)) s with ⟨u, _ | c⟩
      · exact ih u _
      · rfl

theorem finishFramer_withBinding (f : State × FrameEnd) :
    finishFramer (withBindingEnd b f) = (finishFramer f).withBinding b := by
  obtain ⟨u, _ | c⟩ := f <;> rfl

theorem afterInit_withBinding (ctx : Ctx) (k : Fin 15) (f : State × FrameEnd) :
    afterInit ctx k (withBindingEnd b f) = (afterInit ctx k f).withBinding b := by
  obtain ⟨u, _ | c⟩ := f
  · simp only [withBindingEnd, afterInit]
    split_ifs <;> rfl
  · rfl

theorem afterFlush_withBinding (p : Fin 16) (ph : Phase) (n : Nat) (f : State × FrameEnd) :
    afterFlush p ph n (withBindingEnd b f) = (afterFlush p ph n f).withBinding b := by
  obtain ⟨u, _ | c⟩ := f
  · cases ph with
    | page => rfl
    | colLo => rfl
    | colHi => rfl
    | data o =>
      simp only [withBindingEnd, afterFlush, afterPage]
      split_ifs <;> rfl
  · rfl

theorem flushFrame_withBinding (p : Fin 16) (ph : Phase) : flushFrame (s.withBinding b) p ph = flushFrame s p ph := by
  cases ph <;> rfl

theorem seqStep_withBinding : seqStep (s.withBinding b) = withBindingOut b (seqStep s) := by
  rcases hq : s.seq with _ | ⟨ctx, k⟩ | ⟨p, ph⟩
  · simp [seqStep, hq, withBindingOut]
  · simp only [seqStep, State.withBinding_seq, State.withBinding_cfg, State.withBinding_ctrlCmd, hq, emit_withBinding,
      afterInit_withBinding, withBindingOut]
  · obtain ⟨⟨ctrl, payload⟩, hf⟩ := flushFrame_isSome s p ph
    simp only [seqStep, State.withBinding_seq, hq, flushFrame_withBinding, hf, emit_withBinding, afterFlush_withBinding,
      withBindingOut]

/-- An instruction other than CANCEL reads no `BINDING` and writes none: its admission and its effect are the same in both. -/
theorem exec_withBinding {i : Instr} (hi : i ≠ .cancel) : exec i (s.withBinding b) = withBindingOut b (exec i s) := by
  cases i with
  | cancel => exact absurd rfl hi
  | startLineShort line => simp only [exec, execStartLineShort, withBindingOut_ite]; rfl
  | connect addr => simp only [exec, execConnect, withBindingOut_ite]; rfl
  | build => simp only [exec, execBuild, withBindingOut_ite]; rfl
  | initializeOp => simp only [exec, execInitializeOp, withBindingOut_ite]; rfl
  | flush => simp only [exec, execFlush, withBindingOut_ite]; rfl
  | setPixel x y on =>
    cases hr : pixelInRange x y with
    | true => simp only [exec, execSetPixel, hr, memWrite_one _ _ _ (pixelIndex_lt hr), withBindingOut_ite]; rfl
    | false => simp only [exec, execSetPixel, hr, withBindingOut_ite]; rfl
  | clear on => rw [exec, exec, execClear, execClear, withBindingOut_ite]; rfl
  | asBytes => simp only [exec, execAsBytes, memRead_eq _ 0 2048 (by omega), withBindingOut_ite]; rfl
  | sendCommand cmd =>
    simp only [exec, execSendCommand, State.withBinding_ctrlCmd, emit_withBinding, finishFramer_withBinding,
      withBindingOut_ite]
    rfl
  | sendData data =>
    simp only [exec, execSendData, split, splitFrom_withBinding, finishFramer_withBinding, withBindingOut_ite]
    rfl
  | _ => rfl

end Binding

/-- Settles O57: exec (but for CANCEL) and the sequencer's step commute with changing `BINDING`. -/
theorem bindingChangesOnlyCancel : Obligations.BindingChangesOnlyCancel := by
  intro s t b
  refine ⟨fun i hi h => ?_, fun h => ?_⟩
  · exact (exec_withBinding s b hi).trans (congrArg (withBindingOut b) h)
  · exact (seqStep_withBinding s b).trans (congrArg (withBindingOut b) h)

end Sys2Proof.Machine

namespace Sys2Proof.Machine

/-! What `emit` leaves unchanged, whatever its end (42_transport_framer R171). -/

section EmitFrame

variable (ctrl : Byte) (payload : List Byte) (s : State)

@[simp] theorem emit_fb : (emit ctrl payload s).1.fb = s.fb :=
  emit_keeps (P := fun u => u.fb = s.fb) ctrl payload s rfl (by simp)

@[simp] theorem emit_cfg : (emit ctrl payload s).1.cfg = s.cfg :=
  emit_keeps (P := fun u => u.cfg = s.cfg) ctrl payload s rfl (by simp)

@[simp] theorem emit_addr : (emit ctrl payload s).1.addr = s.addr :=
  emit_keeps (P := fun u => u.addr = s.addr) ctrl payload s rfl (by simp)

@[simp] theorem emit_busPresent : (emit ctrl payload s).1.busPresent = s.busPresent :=
  emit_keeps (P := fun u => u.busPresent = s.busPresent) ctrl payload s rfl (by simp)

@[simp] theorem emit_port : (emit ctrl payload s).1.port = s.port :=
  emit_keeps (P := fun u => u.port = s.port) ctrl payload s rfl (by simp)

@[simp] theorem emit_wireBase : (emit ctrl payload s).1.wireBase = s.wireBase :=
  emit_keeps (P := fun u => u.wireBase = s.wireBase) ctrl payload s rfl (by simp)

end EmitFrame

/-! What SPLIT and the end of a framer procedure leave unchanged (R170, R174). -/

section FramerFrame

variable (ctrl : Byte) (data : List Byte) (s : State) (f : State × FrameEnd)

@[simp] theorem split_seq : (split ctrl data s).1.seq = s.seq :=
  splitFrom_keeps' (P := fun u => u.seq = s.seq) (fun u payload hu => by rw [emit_seq, hu]) _ data s rfl

@[simp] theorem finishFramer_seq : (finishFramer f).seq = f.1.seq := by
  obtain ⟨u, _ | c⟩ := f <;> rfl

@[simp] theorem split_cfg : (split ctrl data s).1.cfg = s.cfg :=
  splitFrom_keeps' (P := fun u => u.cfg = s.cfg) (fun u payload hu => by rw [emit_cfg, hu]) _ data s rfl

@[simp] theorem split_params : (split ctrl data s).1.params = s.params :=
  splitFrom_keeps' (P := fun u => u.params = s.params) (fun u payload hu => by rw [emit_params, hu]) _ data s rfl

@[simp] theorem finishFramer_cfg : (finishFramer f).cfg = f.1.cfg := by
  obtain ⟨u, _ | c⟩ := f <;> rfl

@[simp] theorem finishFramer_params : (finishFramer f).params = f.1.params := by
  obtain ⟨u, _ | c⟩ := f <;> rfl

@[simp] theorem finishFramer_wire : (finishFramer f).wire = f.1.wire := by
  obtain ⟨u, _ | c⟩ := f <;> rfl

end FramerFrame

/-! A frame that ended `Ok`. -/

/-- A frame that ended `Ok` was sent whole, and the transport answered `Ok`. -/
theorem eq_sendFrame_of_emit_ok {ctrl : Byte} {payload : List Byte} {s u : State} (he : emit ctrl payload s = (u, .ok)) :
    u = s.sendFrame (ctrl :: payload) ∧ s.nextAnswer = .ok := by
  rcases emit_cases ctrl payload s with ⟨_, e⟩ | ⟨_, e⟩
  · rw [e] at he
    cases he
  · rw [e, Prod.mk.injEq, answerEnd_eq_ok] at he
    exact ⟨he.1.symm, he.2⟩

/-- A frame that ended `Ok` reached the controller (R30). -/
theorem ctl_of_emit_ok {ctrl : Byte} {payload : List Byte} {s u : State} (he : emit ctrl payload s = (u, .ok)) :
    u.ctl = s.ctl.receive (ctrl :: payload) := by
  obtain ⟨rfl, ha⟩ := eq_sendFrame_of_emit_ok he
  rw [State.sendFrame_ctl, ha]

/-! What the frames of FLUSH do to the controller (R30, R212). -/

/-- The control byte of a command frame is not that of a data frame (R82, R83). -/
theorem ctrlCmd_byte_ne_ctrlData (k : CtrlCmd) : k.byte ≠ ctrlData := by
  cases k <;> decide

section Receive

variable (c : Controller)

@[simp] theorem Controller.redraw_page : c.redraw.page = c.page := by
  simp only [Controller.redraw]
  split <;> rfl

@[simp] theorem Controller.redraw_colLo : c.redraw.colLo = c.colLo := by
  simp only [Controller.redraw]
  split <;> rfl

@[simp] theorem Controller.redraw_colHi : c.redraw.colHi = c.colHi := by
  simp only [Controller.redraw]
  split <;> rfl

theorem Controller.receive_command (k : CtrlCmd) (payload : List Byte) :
    c.receive (k.byte :: payload) = (c.command payload).redraw := by
  rw [Controller.receive, Controller.take, if_neg (ctrlCmd_byte_ne_ctrlData k)]

theorem Controller.receive_data (payload : List Byte) :
    c.receive (ctrlData :: payload) = (payload.foldl Controller.store c).redraw := by
  rw [Controller.receive, Controller.take, if_pos rfl]

theorem Controller.command_pageAddress (p : Fin 16) :
    c.command (Catalog.pageAddress (BitVec.ofNat 8 p.val)) = { c with page := some (BitVec.ofNat 4 p.val) } := by
  have hdec : ∀ p : Fin 16, decodeCommand (Catalog.pageAddress (BitVec.ofNat 8 p.val))
      = .instr (.pageAddress (BitVec.ofNat 8 p.val)) := by decide
  have hpage : ∀ p : Fin 16, (BitVec.ofNat 8 p.val).setWidth 4 = BitVec.ofNat 4 p.val := by decide
  simp only [Controller.command, hdec, hpage]

theorem Controller.command_columnLow_zero : c.command (Catalog.columnLow 0) = { c with colLo := some 0 } := rfl

theorem Controller.command_columnHigh_zero : c.command (Catalog.columnHigh 0) = { c with colHi := some 0 } := rfl

end Receive

theorem Controller.At.redraw {c : Controller} {p : BitVec 4} {col : Nat} (h : c.At p col) : c.redraw.At p col := by
  simpa [Controller.At] using h

/-! The mirror of the framebuffer in the controller's RAM (R30, R219 g). -/

/-- A frame that left the RAM as it was leaves the mirror as it was. -/
theorem mirrored_of_redraw {s u : State} {c : Controller} {n : Nat} (hctl : u.ctl = c.redraw) (hram : c.ram = s.ctl.ram)
    (hfb : u.fb = s.fb) (h : ∀ i < n, mirrored s i) : ∀ i < n, mirrored u i := by
  intro i hi
  rw [mirrored, hctl, Controller.redraw_ram, hram, hfb]
  exact h i hi

/-- A data frame of FLUSH that reached the controller: the bytes from `o` on in page `p` mirror the framebuffer, those before
still do, and the pointers stand behind the last byte. -/
theorem mirrored_of_receive_data {s u : State} {p : Fin 16} {o n : Nat} (hat : s.ctl.At (BitVec.ofNat 4 p.val) o)
    (ho : o < 128) (hn : o + n ≤ 128) (hctl : u.ctl = s.ctl.receive (ctrlData :: fbBytes s.fb (128 * p.val + o) n))
    (hfb : u.fb = s.fb) (hs : ∀ i < 128 * p.val + o, mirrored s i) :
    (∀ i < 128 * p.val + (o + n), mirrored u i) ∧ (o + n < 128 → u.ctl.At (BitVec.ofNat 4 p.val) (o + n)) := by
  have hbase : (BitVec.ofNat 4 p.val).toNat * 128 + o = 128 * p.val + o := by
    rw [BitVec.toNat_ofNat, Nat.mod_eq_of_lt p.isLt, Nat.mul_comm]
  obtain ⟨hcells, hptr⟩ := hat.foldl_store (fbBytes s.fb (128 * p.val + o) n) (by rwa [fbBytes_length]) ho
  rw [fbBytes_length, hbase] at hcells
  rw [fbBytes_length] at hptr
  rw [Controller.receive_data] at hctl
  refine ⟨fun i hi => ?_, fun hlt => hctl ▸ (hptr hlt).redraw⟩
  rw [mirrored, hctl, hfb, Controller.redraw_ram, hcells i]
  split_ifs with hsent
  · obtain ⟨k, rfl⟩ := Nat.exists_eq_add_of_le hsent.1
    simp [fbBytes, show k < n by omega]
  · exact hs i (by omega)

/-- From `s` to `t`, a running FLUSH has mirrored what it sent, and one that ended `OK` has mirrored all, and all is known. -/
structure State.KeepsMirror (s t : State) : Prop where
  running : t.FlushMirrors
  ended : ∀ p ph, s.seq = .flush p ph → t.result = .ok → t.ctl.known = t.ctl ∧ ∀ i < 2048, mirrored t i

theorem State.FlushMirrors.of_idle {s : State} (hq : s.seq = .idle) : s.FlushMirrors := by
  simp [State.FlushMirrors, hq]

theorem State.FlushMirrors.of_init {s : State} {ctx : Ctx} {k : Fin 15} (hq : s.seq = .init ctx k) : s.FlushMirrors := by
  simp [State.FlushMirrors, hq]

/-- At the first position of a FLUSH nothing is to be mirrored yet. -/
theorem State.FlushMirrors.of_start {s : State} (hq : s.seq = .flush 0 .page) : s.FlushMirrors := by
  simp [State.FlushMirrors, hq]

namespace State.KeepsMirror

variable {s t : State}

theorem of_not_flush (hq : ∀ p ph, s.seq ≠ .flush p ph) (h : t.FlushMirrors) : s.KeepsMirror t :=
  ⟨h, fun p ph hf => absurd hf (hq p ph)⟩

theorem of_idle (hq : s.seq = .idle) (h : t.FlushMirrors) : s.KeepsMirror t :=
  of_not_flush (fun p ph hf => by simp [hq] at hf) h

theorem of_not_ok (hr : t.result ≠ .ok) (h : t.FlushMirrors) : s.KeepsMirror t :=
  ⟨h, fun _ _ _ hok => absurd hok hr⟩

/-- An update that touches neither the mirror nor `RESULT`, which is NONE while busy. -/
theorem of_result_none (hi : s.Inv) (hr : t.result = s.result) (h : t.FlushMirrors) : s.KeepsMirror t := by
  refine ⟨h, fun p ph hf hok => ?_⟩
  rw [hr, hi.result_none (State.busy_of_flush hf)] at hok
  cases hok

end State.KeepsMirror

/-- No call writes the controller or the framebuffer while FLUSH runs but those that end it, and none ends it `OK`. -/
theorem ExecChange.keepsMirror {s t : State} (hi : s.Inv) (hm : s.FlushMirrors) (hc : ExecChange s t) : s.KeepsMirror t := by
  cases hc with
  | returned b => exact .of_result_none hi rfl hm
  | unchanged => exact .of_result_none hi rfl hm
  | drew fb h =>
    have hq := (State.sessionIdle_iff.mp h).1
    exact .of_idle hq (.of_idle hq)
  | connected addr h =>
    have hq := (State.builderIdle_iff.mp h).1
    exact .of_idle hq (.of_idle hq)
  | buildFailed => exact .of_not_ok nofun (.of_idle rfl)
  | buildStarted => exact .of_not_ok nofun (.of_init rfl)
  | initAccepted => exact .of_not_ok nofun (.of_init rfl)
  | flushAccepted => exact .of_not_ok nofun (.of_start rfl)
  | cancelledBuild => exact .of_not_ok nofun (.of_idle rfl)
  | cancelledOperation => exact .of_not_ok nofun (.of_idle rfl)
  | dropped => exact .of_not_ok nofun (.of_idle rfl)
  | commandSent cmd h =>
    have hq := (State.sessionIdle_iff.mp h).1
    exact .of_idle hq (.of_idle (by rw [finishFramer_seq, emit_seq, hq]))
  | dataSent data h =>
    have hq := (State.sessionIdle_iff.mp h).1
    exact .of_idle hq (.of_idle (by rw [finishFramer_seq, split_seq, hq]))

/-- A walk's step leads to its next position, or to idle. -/
theorem afterInit_flushMirrors (ctx : Ctx) (k : Fin 15) (f : State × FrameEnd) : (afterInit ctx k f).FlushMirrors := by
  obtain ⟨u, _ | c⟩ := f
  · simp only [afterInit]
    split_ifs
    · exact .of_init rfl
    · exact .of_idle rfl
  · exact .of_idle rfl

/-- Page `p` being mirrored with all before it, the next page begins, or FLUSH ends with everything mirrored and known. -/
theorem afterPage_keepsMirror (s : State) {u : State} {p : Fin 16} (hr : u.result = .none)
    (h : ∀ i < 128 * p.val + 128, mirrored u i) : s.KeepsMirror (afterPage p u) := by
  simp only [afterPage]
  split_ifs with hp
  · exact .of_not_ok (by simp [hr]) fun i hi => h i (by simp only at hi; omega)
  · exact ⟨.of_idle rfl, fun _ _ _ _ => ⟨Controller.known_full rfl, fun i hi => h i (by omega)⟩⟩

/-- A step of FLUSH: a select frame moves a pointer, a data frame extends the mirror by its bytes, a failure ends FLUSH. -/
theorem afterFlush_keepsMirror {s : State} {p : Fin 16} {ph : Phase} {ctrl : Byte} {payload : List Byte} (hi : s.Inv)
    (hm : s.FlushMirrors) (hq : s.seq = .flush p ph) (hf : flushFrame s p ph = some (ctrl, payload)) :
    s.KeepsMirror (afterFlush p ph payload.length (emit ctrl payload s)) := by
  have hr := (emit_result ctrl payload s).trans (hi.result_none (State.busy_of_flush hq))
  have hfb := emit_fb ctrl payload s
  simp only [State.FlushMirrors, hq] at hm
  rcases he : emit ctrl payload s with ⟨u, _ | c⟩
  · have hctl := ctl_of_emit_ok he
    rw [he] at hr hfb
    simp only at hr hfb
    cases ph with
    | page =>
      cases hf
      rw [Controller.receive_command, Controller.command_pageAddress] at hctl
      have hmir' := mirrored_of_redraw hctl rfl hfb hm
      have hpage' : u.ctl.page = some (BitVec.ofNat 4 p.val) := by rw [hctl, Controller.redraw_page]
      exact .of_not_ok (by simp [afterFlush, hr]) ⟨hmir', hpage'⟩
    | colLo =>
      cases hf
      obtain ⟨hmir, hpage⟩ := hm
      rw [Controller.receive_command, Controller.command_columnLow_zero] at hctl
      have hmir' := mirrored_of_redraw hctl rfl hfb hmir
      have hpage' : u.ctl.page = some (BitVec.ofNat 4 p.val) := by rw [hctl, Controller.redraw_page, hpage]
      have hlo' : u.ctl.colLo = some 0 := by rw [hctl, Controller.redraw_colLo]
      exact .of_not_ok (by simp [afterFlush, hr]) ⟨hmir', hpage', hlo'⟩
    | colHi =>
      cases hf
      obtain ⟨hmir, hpage, hlo⟩ := hm
      rw [Controller.receive_command, Controller.command_columnHigh_zero] at hctl
      have hmir' := mirrored_of_redraw hctl rfl hfb hmir
      have hpage' : u.ctl.page = some (BitVec.ofNat 4 p.val) := by rw [hctl, Controller.redraw_page, hpage]
      have hlo' : u.ctl.colLo = some 0 := by rw [hctl, Controller.redraw_colLo, hlo]
      have hhi' : u.ctl.colHi = some 0 := by rw [hctl, Controller.redraw_colHi]
      exact .of_not_ok (by simp [afterFlush, hr]) ⟨hmir', hpage', hlo', hhi'⟩
    | data o =>
      rw [flushFrame_data] at hf
      cases hf
      obtain ⟨hmir, hat⟩ := hm
      obtain ⟨hmir', hat'⟩ := mirrored_of_receive_data hat o.isLt (by omega) hctl hfb hmir
      simp only [afterFlush, fbBytes_length]
      split_ifs with hlt
      · exact .of_not_ok (by simp [hr]) ⟨hmir', hat' hlt⟩
      · exact afterPage_keepsMirror s hr fun i hb => hmir' i (by omega)
  · exact .of_not_ok (by simp [afterFlush]) (.of_idle rfl)

theorem SeqChange.keepsMirror {s t : State} (hi : s.Inv) (hm : s.FlushMirrors) (hc : SeqChange s t) : s.KeepsMirror t := by
  cases hc with
  | stayed hq => exact .of_idle hq hm
  | initStep ctx k hq => exact .of_not_flush (fun p ph hf => by simp [hq] at hf) (afterInit_flushMirrors _ _ _)
  | flushStep p ph ctrl payload hq hf => exact afterFlush_keepsMirror hi hm hq hf

/-- Settles O42: only a step of FLUSH touches the mirror while it runs, and each of its frames extends it; neither the mirror nor
what a step does to it looks at the port. -/
theorem flushMirrorsTheFramebuffer : Obligations.FlushMirrorsTheFramebuffer := by
  intro s t hi hm hstep
  have keeps : s.KeepsMirror t := by
    rcases step_cases hstep with ⟨_, q, i, _, _, he⟩ | ⟨q, _, he⟩ | ⟨_, rfl⟩
    · have hk : (s.setPort q).KeepsMirror t := (exec_change he).keepsMirror (hi.setPort q) hm
      exact ⟨hk.running, hk.ended⟩
    · have hk : (s.setPort q).KeepsMirror t := (seqStep_change he).keepsMirror (hi.setPort q) hm
      exact ⟨hk.running, hk.ended⟩
    · exact .of_result_none hi rfl hm
  exact ⟨keeps.running, keeps.ended⟩

end Sys2Proof.Machine

namespace Sys2Proof.Machine

/-! What a step of the sequencer writes besides its frame (10_state R35 e, 43_initialize R193, 44_flush R212). -/

/-- From `s` to `t`, nothing changed but the sequencer's progress: `SEQ`, `RESULT`, `BSTATE` and the controller. -/
def State.ProgressOnly (s t : State) : Prop := ∃ q r b c, t = { s with seq := q, result := r, bstate := b, ctl := c }

theorem afterInit_progressOnly (ctx : Ctx) (k : Fin 15) (f : State × FrameEnd) : f.1.ProgressOnly (afterInit ctx k f) := by
  obtain ⟨u, _ | c⟩ := f
  · simp only [afterInit]
    split_ifs
    · exact ⟨_, _, _, _, rfl⟩
    · exact ⟨_, _, _, _, rfl⟩
  · exact ⟨_, _, _, _, rfl⟩

theorem afterPage_progressOnly (p : Fin 16) (u : State) : u.ProgressOnly (afterPage p u) := by
  simp only [afterPage]
  split_ifs
  · exact ⟨_, _, _, _, rfl⟩
  · exact ⟨_, _, _, _, rfl⟩

theorem afterFlush_progressOnly (p : Fin 16) (ph : Phase) (n : Nat) (f : State × FrameEnd) :
    f.1.ProgressOnly (afterFlush p ph n f) := by
  obtain ⟨u, _ | c⟩ := f
  · cases ph with
    | page => exact ⟨_, _, _, _, rfl⟩
    | colLo => exact ⟨_, _, _, _, rfl⟩
    | colHi => exact ⟨_, _, _, _, rfl⟩
    | data o =>
      simp only [afterFlush]
      split_ifs
      · exact ⟨_, _, _, _, rfl⟩
      · exact afterPage_progressOnly p u
  · exact ⟨_, _, _, _, rfl⟩

/-- A byte that stands in front of a frame the block sends (R81, R82, R83). -/
def IsControlByte (p : Params) (ctrl : Byte) : Prop := ctrl = p.ctrlCmd.byte ∨ ctrl = ctrlData

theorem flushFrame_control {s : State} {p : Fin 16} {ph : Phase} {ctrl : Byte} {payload : List Byte}
    (hf : flushFrame s p ph = some (ctrl, payload)) : IsControlByte s.params ctrl := by
  cases ph with
  | page => cases hf; exact .inl rfl
  | colLo => cases hf; exact .inl rfl
  | colHi => cases hf; exact .inl rfl
  | data o => rw [flushFrame_data] at hf; cases hf; exact .inr rfl

/-- All that a step of the sequencer writes: the frame that it sends, and its own progress. -/
theorem SeqChange.emits {s t : State} (h : SeqChange s t) :
    t = s ∨ ∃ ctrl payload, IsControlByte s.params ctrl ∧ (emit ctrl payload s).1.ProgressOnly t := by
  cases h with
  | stayed => exact .inl rfl
  | initStep ctx k => exact .inr ⟨_, _, .inl rfl, afterInit_progressOnly ctx k _⟩
  | flushStep p ph ctrl payload _ hf => exact .inr ⟨_, _, flushFrame_control hf, afterFlush_progressOnly p ph _ _⟩

/-- Settles O41: neither `emit` nor the sequencer's progress writes any of these. -/
theorem sequencerNeverWritesFramebuffer : Obligations.SequencerNeverWritesFramebuffer := by
  intro s t hstep
  rcases (seqStep_change hstep).emits with rfl | ⟨ctrl, payload, -, q, r, b, c, rfl⟩
  · simp
  · simp

/-! The configuration (R21, R33): no instruction and no step of the sequencer writes it. -/

/-- The configuration registers and the parameters are the same. -/
def State.SameConfig (s t : State) : Prop := t.cfg = s.cfg ∧ t.params = s.params

theorem ExecChange.sameConfig {s t : State} (h : ExecChange s t) : s.SameConfig t := by
  cases h with
  | commandSent cmd => exact ⟨by simp, by simp⟩
  | dataSent data => exact ⟨by simp, by simp⟩
  | _ => exact ⟨rfl, rfl⟩

theorem SeqChange.sameConfig {s t : State} (h : SeqChange s t) : s.SameConfig t := by
  rcases h.emits with rfl | ⟨ctrl, payload, -, q, r, b, c, rfl⟩
  · exact ⟨rfl, rfl⟩
  · exact ⟨emit_cfg _ _ _, emit_params _ _ _⟩

/-- Settles O54: no change that an instruction or the sequencer can make writes the configuration. -/
theorem configurationIsConstant : Obligations.ConfigurationIsConstant := by
  intro s t hstep
  rcases step_cases hstep with ⟨_, port, i, _, _, he⟩ | ⟨port, _, he⟩ | ⟨_, rfl⟩
  · exact (exec_change he).sameConfig
  · exact (seqStep_change he).sameConfig
  · exact ⟨rfl, rfl⟩

/-! `WIRE` only grows (R29, R35 d): by the frames that `emit` sends. -/

/-- An entry of `WIRE` for a frame that the block in state `s` may send. -/
def State.Sends (s : State) (e : WireEntry) : Prop :=
  e.addr = s.addr ∧ ∃ c payload, e.bytes = c :: payload ∧ IsControlByte s.params c

/-- `WIRE` in `t` is that in `s` and frames sent since. -/
def State.WireGrows (s t : State) : Prop := ∃ new, t.wire = s.wire ++ new ∧ ∀ e ∈ new, s.Sends e

theorem State.WireGrows.of_wire_eq {s t : State} (h : t.wire = s.wire) : s.WireGrows t :=
  ⟨[], by rw [h, List.append_nil], nofun⟩

/-- `emit` adds one entry, or none. -/
theorem emit_wire_cases (ctrl : Byte) (payload : List Byte) (s : State) :
    (emit ctrl payload s).1.wire = s.wire
      ∨ ∃ a, (emit ctrl payload s).1.wire = s.wire ++ [{ addr := s.addr, bytes := ctrl :: payload, answer := a }] := by
  rcases emit_cases ctrl payload s with ⟨_, he⟩ | ⟨_, he⟩
  · rw [he]; exact .inl rfl
  · rw [he]; exact .inr ⟨_, State.sendFrame_wire _ _⟩

/-- Sent from a state with the same `ADDR` and parameters, a frame extends what was sent before. -/
theorem State.WireGrows.emit {s u : State} (h : s.WireGrows u) (ha : u.addr = s.addr) {ctrl : Byte}
    (hc : IsControlByte s.params ctrl) (payload : List Byte) : s.WireGrows (emit ctrl payload u).1 := by
  obtain ⟨new, hw, hnew⟩ := h
  rcases emit_wire_cases ctrl payload u with he | ⟨a, he⟩
  · exact ⟨new, he.trans hw, hnew⟩
  · refine ⟨new ++ [_], by rw [he, hw, List.append_assoc], fun e hmem => ?_⟩
    rcases List.mem_append.mp hmem with hold | hlast
    · exact hnew e hold
    · cases List.mem_singleton.mp hlast
      exact ⟨ha, ctrl, payload, rfl, hc⟩

theorem split_wireGrows (data : List Byte) (s : State) : s.WireGrows (split ctrlData data s).1 :=
  (splitFrom_keeps' (P := fun u => s.WireGrows u ∧ u.addr = s.addr)
    (fun u payload ⟨hw, ha⟩ => ⟨hw.emit ha (.inr rfl) payload, (emit_addr _ _ u).trans ha⟩) _ data s
    ⟨.of_wire_eq rfl, rfl⟩).1

theorem emit_wireGrows {ctrl : Byte} {s : State} (hc : IsControlByte s.params ctrl) (payload : List Byte) :
    s.WireGrows (emit ctrl payload s).1 :=
  (State.WireGrows.of_wire_eq rfl).emit rfl hc payload

/-- `WIRE` stays as it was after it grew. -/
theorem State.WireGrows.trans_wire_eq {s t u : State} (h : s.WireGrows t) (hw : u.wire = t.wire) : s.WireGrows u := by
  obtain ⟨new, ht, hnew⟩ := h
  exact ⟨new, hw.trans ht, hnew⟩

theorem ExecChange.wireGrows {s t : State} (h : ExecChange s t) : s.WireGrows t := by
  cases h with
  | commandSent cmd => exact (emit_wireGrows (.inl rfl) cmd).trans_wire_eq (finishFramer_wire _)
  | dataSent data => exact (split_wireGrows data s).trans_wire_eq (finishFramer_wire _)
  | _ => exact .of_wire_eq rfl

theorem SeqChange.wireGrows {s t : State} (h : SeqChange s t) : s.WireGrows t := by
  rcases h.emits with rfl | ⟨ctrl, payload, hc, q, r, b, c, rfl⟩
  · exact .of_wire_eq rfl
  · exact (emit_wireGrows hc payload).trans_wire_eq rfl

theorem SeqChange.wire_length_le {s t : State} (h : SeqChange s t) : t.wire.length ≤ s.wire.length + 1 := by
  rcases h.emits with rfl | ⟨ctrl, payload, -, q, r, b, c, rfl⟩
  · exact Nat.le_succ _
  · rcases emit_wire_cases ctrl payload s with he | ⟨a, he⟩
    · simp [he]
    · simp [he]

/-- Settles O55: frames are sent by `emit` only, which appends one entry at most, to `ADDR` and behind a control byte; a step
of the sequencer calls it once. -/
theorem wireOnlyGrows : Obligations.WireOnlyGrows := by
  refine ⟨fun s t hstep => ?grows, fun s t hstep => (seqStep_change hstep).wire_length_le⟩
  case grows =>
    rcases step_cases hstep with ⟨_, port, i, _, _, he⟩ | ⟨port, _, he⟩ | ⟨_, rfl⟩
    · exact (exec_change he).wireGrows
    · exact (seqStep_change he).wireGrows
    · exact State.WireGrows.of_wire_eq rfl

end Sys2Proof.Machine

namespace Sys2Proof.Machine

/-! The state after reset (10_state R34). -/

/-- Settles O50: DROP leads to `dropReset`, whose fields, like those of `State.reset`, are the table's. -/
theorem resetValues : Obligations.ResetValues := by
  refine ⟨fun u hu => ?values, rfl, fun s u hdrop => ?kept⟩
  case values =>
    rcases hu with rfl | ⟨s, hdrop⟩
    · exact ⟨fun i => rfl, rfl, rfl, rfl, rfl, rfl, rfl, rfl⟩
    · cases hdrop
      exact ⟨fun i => rfl, rfl, rfl, rfl, rfl, rfl, rfl, rfl⟩
  case kept =>
    cases hdrop
    exact ⟨rfl, rfl⟩

/-- The free parameters after reset are drawn upwards from the least legal values (R7). -/
theorem State.reset_legal : State.reset.params.legal := ⟨Nat.le_add_left 3 _, Nat.le_add_left 1 _⟩

theorem State.reset_inv : State.reset.Inv where
  legal := State.reset_legal
  fb := rfl
  bus := rfl
  seq := rfl
  result := rfl
  stage := by simp [State.stageWf, State.reset]
  wire := nofun
  base := le_rfl
  ram := rfl

/-- Settles O52: nothing is drawn, staged or sent yet, and the parameters are legal. -/
theorem resetMeetsInvariant : Obligations.ResetMeetsInvariant := ⟨State.reset_inv, rfl⟩

end Sys2Proof.Machine

namespace Sys2Proof.Machine

/-! No fault (20_memory R51): every MemRead and MemWrite that a meaning or the sequencer makes is admitted. -/

theorem exec_ne_fault (i : Instr) (s : State) (f : Fault) : exec i s ≠ .fault f := by
  intro h
  cases i with
  | setPixel x y on =>
    simp only [exec, execSetPixel] at h
    split_ifs at h with hi hr
    rw [memWrite_one _ _ _ (pixelIndex_lt hr)] at h
    cases h
  | asBytes =>
    simp only [exec, execAsBytes, memRead_eq _ 0 2048 (by omega)] at h
    split_ifs at h
  | clear on =>
    rw [exec, execClear] at h
    split at h <;> cases h
  | startLineShort _ | connect _ | build | initializeOp | flush | cancel | sendCommand _ | sendData _ =>
    simp only [exec, execStartLineShort, execConnect, execBuild, execInitializeOp, execFlush, execCancel, execSendCommand,
      execSendData] at h
    split_ifs at h
  | _ => cases h

theorem seqStep_ne_fault (s : State) (f : Fault) : seqStep s ≠ .fault f := by
  intro h
  rcases hq : s.seq with _ | ⟨ctx, k⟩ | ⟨p, ph⟩
  · simp [seqStep, hq] at h
  · simp [seqStep, hq] at h
  · obtain ⟨frame, hf⟩ := flushFrame_isSome s p ph
    simp [seqStep, hq, hf] at h

theorem runRequest_ne_fault (r : Request) (s : State) (f : Fault) : runRequest r s ≠ .fault f := by
  simp only [runRequest]
  split
  · exact exec_ne_fault _ s f
  · nofun

/-- Settles O53: a step runs a request, makes the sequencer's step or waits, and none of these faults. -/
theorem stepNeverFaults : Obligations.StepNeverFaults := by
  intro s f
  simp only [step]
  split
  · exact runRequest_ne_fault _ _ f
  · exact seqStep_ne_fault _ f
  · nofun

/-! The framebuffer while an operation runs (20_memory R64 e). -/

theorem State.sessionIdle_of_busy {s : State} (hb : s.busy = true) : s.sessionIdle = false := by
  simp [State.sessionIdle, hb]

theorem State.builderIdle_of_busy {s : State} (hb : s.busy = true) : s.builderIdle = false := by
  simp [State.builderIdle, hb]

/-- From `s` to `t`, the framebuffer stayed, or the session ended with everything reset. -/
def State.FbKeptOrReset (s t : State) : Prop := t.fb = s.fb ∨ (t.bstate = .unconfigured ∧ t.seq = .idle ∧ t.fb = [])

/-- R238: what draws is admitted to an idle session only; of what is admitted to a busy block, only a reset writes `FB`. -/
theorem ExecChange.fbKeptOrReset {s t : State} (hb : s.busy = true) (h : ExecChange s t) : s.FbKeptOrReset t := by
  have hs := State.sessionIdle_of_busy hb
  have hi := State.builderIdle_of_busy hb
  cases h with
  | returned b => exact .inl rfl
  | unchanged => exact .inl rfl
  | cancelledBuild => exact .inr ⟨rfl, rfl, rfl⟩
  | cancelledOperation => exact .inl rfl
  | dropped => exact .inr ⟨rfl, rfl, rfl⟩
  | connected addr h => simp [hi] at h
  | buildFailed h => simp [hi] at h
  | buildStarted h => simp [hi] at h
  | drew fb h => simp [hs] at h
  | initAccepted h => simp [hs] at h
  | flushAccepted h => simp [hs] at h
  | commandSent cmd h => simp [hs] at h
  | dataSent data h => simp [hs] at h

theorem SeqChange.fb_eq {s t : State} (h : SeqChange s t) : t.fb = s.fb := by
  rcases h.emits with rfl | ⟨ctrl, payload, -, q, r, b, c, rfl⟩
  · rfl
  · exact emit_fb ctrl payload s

/-- Settles O56: a busy block takes no call that draws, and the sequencer never writes `FB`. -/
theorem framebufferIsFrozenWhileBusy : Obligations.FramebufferIsFrozenWhileBusy := by
  intro s t hb hstep
  rcases step_cases hstep with ⟨_, port, i, _, _, he⟩ | ⟨port, _, he⟩ | ⟨_, rfl⟩
  · exact (exec_change he).fbKeptOrReset (s := s.setPort port) hb
  · exact .inl (seqStep_change he).fb_eq
  · exact .inl rfl

end Sys2Proof.Machine

namespace Sys2Proof.Machine

/-! The pixel mapping over the natural numbers that in-range coordinates stand for (20_memory R63). -/

theorem coordInRange_iff {c : Coord} : coordInRange c = true ↔ c.toNat < 128 := by
  simp only [coordInRange, Bool.and_eq_true, decide_eq_true_eq, BitVec.toInt_eq_toNat_cond]
  have hlt := c.isLt
  split_ifs <;> omega

theorem pixelInRange_iff_toNat {x y : Coord} : pixelInRange x y = true ↔ x.toNat < 128 ∧ y.toNat < 128 := by
  rw [pixelInRange, Bool.and_eq_true, coordInRange_iff, coordInRange_iff]

theorem toInt_of_lt {c : Coord} (h : c.toNat < 128) : c.toInt.toNat = c.toNat := by
  rw [BitVec.toInt_eq_toNat_of_lt (by omega), Int.toNat_natCast]

theorem pixelIndex_of_lt {x y : Coord} (hx : x.toNat < 128) (hy : y.toNat < 128) :
    pixelIndex x y = x.toNat + y.toNat / 8 * 128 := by
  rw [pixelIndex, toInt_of_lt hx, toInt_of_lt hy]

theorem pixelBit_of_lt {y : Coord} (hy : y.toNat < 128) : pixelBit y = y.toNat % 8 := by
  rw [pixelBit, toInt_of_lt hy]

theorem toNat_coord_ofNat {n : Nat} (h : n < 128) : (BitVec.ofNat 32 n : Coord).toNat = n := by
  rw [BitVec.toNat_ofNat, Nat.mod_eq_of_lt (by omega)]

/-- R63: `x` is recovered from the byte index, `y` from the byte index and the bit index. -/
theorem pixel_eq_ofNat {x y : Coord} (h : pixelInRange x y = true) :
    x = BitVec.ofNat 32 (pixelIndex x y % 128) ∧ y = BitVec.ofNat 32 (8 * (pixelIndex x y / 128) + pixelBit y) := by
  obtain ⟨hx, hy⟩ := pixelInRange_iff_toNat.mp h
  rw [pixelIndex_of_lt hx hy, pixelBit_of_lt hy]
  constructor
  · apply BitVec.eq_of_toNat_eq
    rw [toNat_coord_ofNat (by omega)]
    omega
  · apply BitVec.eq_of_toNat_eq
    rw [toNat_coord_ofNat (by omega)]
    omega

/-- Settles O21: the mapping and its inverse are the division of the numbers of the coordinates by 8 and by 128. -/
theorem pixelMappingIsBijective : Obligations.PixelMappingIsBijective := by
  refine ⟨fun x y h => ?inverse, fun i hi b hb => ?onto⟩
  case inverse => exact ⟨pixelIndex_lt h, pixelBit_lt y, pixel_eq_ofNat h⟩
  case onto =>
    have hx : (BitVec.ofNat 32 (i % 128) : Coord).toNat = i % 128 := toNat_coord_ofNat (by omega)
    have hy : (BitVec.ofNat 32 (8 * (i / 128) + b) : Coord).toNat = 8 * (i / 128) + b := toNat_coord_ofNat (by omega)
    rw [pixelInRange_iff_toNat, pixelIndex_of_lt (by omega) (by omega), pixelBit_of_lt (by omega), hx, hy]
    omega

/-- Different in-range pixels differ in their byte or in their bit. -/
theorem pixelBit_ne_of_pixelIndex_eq {x y x' y' : Coord} (h : pixelInRange x y = true) (h' : pixelInRange x' y' = true)
    (hne : (x', y') ≠ (x, y)) (hi : pixelIndex x y = pixelIndex x' y') : pixelBit y ≠ pixelBit y' := by
  intro hb
  obtain ⟨hx, hy⟩ := pixel_eq_ofNat h
  obtain ⟨hx', hy'⟩ := pixel_eq_ofNat h'
  rw [← hi] at hx' hy'
  rw [← hb] at hy'
  exact hne (by rw [hx'.trans hx.symm, hy'.trans hy.symm])

/-! Writing one bit twice, and two bits in either order (40_framebuffer_ops R113). -/

theorem putBit_putBit_same (v : Byte) {b : Nat} (hb : b < 8) (on : Bool) : putBit (putBit v b on) b on = putBit v b on := by
  apply BitVec.eq_of_getLsbD_eq
  intro k hk
  rw [getLsbD_putBit _ _ _ _ hb hk, getLsbD_putBit _ _ _ _ hb hk]
  split_ifs <;> rfl

theorem putBit_comm (v : Byte) {b b' : Nat} (hb : b < 8) (hb' : b' < 8) (hne : b ≠ b') (on on' : Bool) :
    putBit (putBit v b on) b' on' = putBit (putBit v b' on') b on := by
  apply BitVec.eq_of_getLsbD_eq
  intro k hk
  simp only [getLsbD_putBit _ _ _ _ hb hk, getLsbD_putBit _ _ _ _ hb' hk]
  split_ifs with h h'
  · exact absurd (h'.symm.trans h) hne
  · rfl
  · rfl
  · rfl

/-! SET_PIXEL as a function of the framebuffer (20_memory R61, R119 d). -/

/-- The framebuffer after SET_PIXEL in an idle session, in range or not. -/
def drawPixel (x y : Coord) (on : Bool) (m : List Host.Cell) : List Host.Cell :=
  if pixelInRange x y then writeByte m (pixelIndex x y) (putBit (readByte m (pixelIndex x y)) (pixelBit y) on) else m

theorem exec_setPixel_idle {s : State} (h : s.sessionIdle = true) (x y : Coord) (on : Bool) :
    exec (.setPixel x y on) s = .next (s.setFb (drawPixel x y on s.fb)) := by
  cases hr : pixelInRange x y with
  | true => rw [exec_setPixel_inRange h hr, drawPixel, if_pos hr]
  | false => rw [exec_setPixel_outOfRange h hr, drawPixel, if_neg (by simp [hr])]; rfl

/-- SET_PIXEL after SET_PIXEL: a write of `FB` keeps the session idle. -/
theorem exec_setPixel_setFb {s : State} (h : s.sessionIdle = true) (m : List Host.Cell) (x y : Coord) (on : Bool) :
    exec (.setPixel x y on) (s.setFb m) = .next (s.setFb (drawPixel x y on m)) :=
  exec_setPixel_idle (s := s.setFb m) h x y on

theorem Memory.wf_drawPixel {m : List Host.Cell} (hm : Memory.wf m = true) (x y : Coord) (on : Bool) :
    Memory.wf (drawPixel x y on m) = true := by
  simp only [drawPixel]
  split_ifs with hr
  · exact Memory.wf_setPixel _ hm hr
  · exact hm

theorem readByte_drawPixel {m : List Host.Cell} (hm : Memory.wf m = true) (x y : Coord) (on : Bool) (i : Nat) :
    readByte (drawPixel x y on m) i
      = if pixelInRange x y ∧ i = pixelIndex x y then putBit (readByte m i) (pixelBit y) on else readByte m i := by
  simp only [drawPixel]
  split_ifs with hr hi hi
  · rw [readByte_writeByte _ _ _ _ hm, if_pos hi.2, hi.2]
  · rw [readByte_writeByte _ _ _ _ hm, if_neg fun h => hi ⟨hr, h⟩]
  · exact absurd hi.1 hr
  · rfl

theorem drawPixel_drawPixel_same {m : List Host.Cell} (hm : Memory.wf m = true) (x y : Coord) (on : Bool) :
    drawPixel x y on (drawPixel x y on m) = drawPixel x y on m := by
  have hd := Memory.wf_drawPixel hm x y on
  refine Memory.ext (Memory.wf_drawPixel hd x y on) hd fun i => ?_
  rw [readByte_drawPixel hd, readByte_drawPixel hm]
  split_ifs
  · exact putBit_putBit_same _ (pixelBit_lt y) on
  · rfl

theorem drawPixel_comm {m : List Host.Cell} (hm : Memory.wf m = true) {x y x' y' : Coord} (hne : (x', y') ≠ (x, y))
    (on on' : Bool) : drawPixel x' y' on' (drawPixel x y on m) = drawPixel x y on (drawPixel x' y' on' m) := by
  have hd := Memory.wf_drawPixel hm x y on
  have hd' := Memory.wf_drawPixel hm x' y' on'
  refine Memory.ext (Memory.wf_drawPixel hd x' y' on') (Memory.wf_drawPixel hd' x y on) fun i => ?_
  rw [readByte_drawPixel hd, readByte_drawPixel hm, readByte_drawPixel hd', readByte_drawPixel hm]
  split_ifs with h' h
  · have hbit := pixelBit_ne_of_pixelIndex_eq h.1 h'.1 hne (h.2.symm.trans h'.2)
    exact putBit_comm _ (pixelBit_lt y) (pixelBit_lt y') hbit on on'
  · rfl
  · rfl
  · rfl

/-- Settles O23: in an idle session SET_PIXEL completes with `drawPixel` of the framebuffer, which repeats and commutes. -/
theorem setPixelIdempotentAndCommutes : Obligations.SetPixelIdempotentAndCommutes := by
  intro s x y x' y' on on' hq hst hm
  have hs : s.sessionIdle = true := State.sessionIdle_iff.mpr ⟨hq, hst⟩
  refine ⟨_, _, s.setFb (drawPixel x y on (drawPixel x' y' on' s.fb)), exec_setPixel_idle hs x y on,
    exec_setPixel_idle hs x' y' on', ?same, fun hne => ⟨?order, exec_setPixel_setFb hs _ x y on⟩⟩
  case same => rw [exec_setPixel_setFb hs, drawPixel_drawPixel_same hm]
  case order => rw [exec_setPixel_setFb hs, drawPixel_comm hm hne]

end Sys2Proof.Machine

namespace Sys2Proof.Machine

/-! What a failure leaves determined of the controller (10_state R30, 20_memory R68, U1, U7). -/

theorem Controller.fail_reliance_below {c : Controller} (h : c.reliance ≠ .unknown) (n : Nat) :
    (c.fail n).reliance = .below n := by
  cases hr : c.reliance with
  | full => simp [Controller.fail, hr]
  | below m => simp [Controller.fail, hr]
  | unknown => exact absurd hr h

/-- Neither pointer of the controller is determined. -/
def Controller.NoPointers (c : Controller) : Prop := c.page = none ∧ c.colLo = none ∧ c.colHi = none

theorem Controller.fail_noPointers (c : Controller) (n : Nat) : (c.fail n).NoPointers := ⟨rfl, rfl, rfl⟩

theorem Controller.known_noPointers {c : Controller} {n : Nat} (h : c.reliance = .below n) : c.known.NoPointers := by
  simp [Controller.known, h, Controller.NoPointers]

/-- Nothing of the controller is determined, and nothing counts as known. -/
def Controller.NothingDetermined (c : Controller) : Prop :=
  c.ram = [] ∧ c.NoPointers ∧ (c.reliance = .below 0 ∨ c.reliance = .unknown)

/-- A failure that keeps no page determines nothing (R175, U7). -/
theorem Controller.fail_zero_nothingDetermined (c : Controller) : (c.fail 0).NothingDetermined := by
  refine ⟨by simp [Controller.fail, Cells.keepBelow], c.fail_noPointers 0, ?_⟩
  by_cases h : c.reliance = .unknown
  · exact .inr (c.fail_unknown h 0)
  · exact .inl (c.fail_reliance_below h 0)

theorem Controller.afterCancel_reliance (c : Controller) (q : Seq) :
    (c.afterCancel q).reliance = c.reliance ∨ (c.afterCancel q).reliance = .unknown := by
  cases q with
  | idle => exact .inl rfl
  | init ctx k => exact .inr rfl
  | flush p ph => exact .inr rfl

/-- A frame that failed did not change what the controller holds: it was not sent, or was not answered `Ok` (R171, R30). -/
theorem ctl_of_emit_err {ctrl : Byte} {payload : List Byte} {s u : State} {c : Cause}
    (he : emit ctrl payload s = (u, .err c)) : u.ctl = s.ctl := by
  rcases emit_cases ctrl payload s with ⟨_, e⟩ | ⟨_, e⟩
  · rw [e] at he
    cases he
    rfl
  · rw [e, Prod.mk.injEq] at he
    obtain ⟨rfl, hend⟩ := he
    rw [State.sendFrame_ctl]
    cases ha : s.nextAnswer with
    | ok => simp [ha, answerEnd] at hend
    | err e => rfl

/-! How a step of the sequencer can end (43_initialize R193, 44_flush R212, 60_exceptions R256). -/

/-- From `s` to `t`, the operation goes on, is complete, or has failed. -/
inductive SeqEnd (s t : State) : Prop where
  | goesOn (hres : t.result = s.result) (hrel : t.ctl.reliance = s.ctl.reliance)
  | initCompleted (hres : t.result = .ok) (hrel : t.ctl.reliance = s.ctl.reliance)
  | flushCompleted (p : Fin 16) (ph : Phase) (hq : s.seq = .flush p ph) (hseq : t.seq = .idle) (hres : t.result = .ok)
  | failed (e : Error) (hseq : t.seq = .idle) (hres : t.result = .err e) (hctl : t.ctl = s.ctl.afterFailure s.seq)

/-- A failed frame ends the operation at which `SEQ` still stands. -/
theorem SeqEnd.of_emit_err {ctrl : Byte} {payload : List Byte} {s u : State} {c : Cause}
    (he : emit ctrl payload s = (u, .err c)) (e : Error) : SeqEnd s (u.raiseError e) := by
  refine .failed e rfl rfl ?_
  have hq := emit_seq ctrl payload s
  rw [he] at hq
  rw [State.raiseError_ctl, ctl_of_emit_err he, hq]

theorem afterInit_seqEnd {s : State} {ctx : Ctx} {k : Fin 15} (ctrl : Byte) (payload : List Byte) :
    SeqEnd s (afterInit ctx k (emit ctrl payload s)) := by
  have hres := emit_result ctrl payload s
  have hrel := emit_reliance ctrl payload s
  rcases he : emit ctrl payload s with ⟨u, _ | c⟩
  · rw [he] at hres hrel
    simp only [afterInit]
    split_ifs
    · exact .goesOn hres hrel
    · exact .initCompleted rfl hrel
  · exact .of_emit_err he _

theorem afterFlush_seqEnd {s : State} {p : Fin 16} {ph : Phase} (hq : s.seq = .flush p ph) (n : Nat) (ctrl : Byte)
    (payload : List Byte) : SeqEnd s (afterFlush p ph n (emit ctrl payload s)) := by
  have hres := emit_result ctrl payload s
  have hrel := emit_reliance ctrl payload s
  rcases he : emit ctrl payload s with ⟨u, _ | c⟩
  · rw [he] at hres hrel
    cases ph with
    | page => exact .goesOn hres hrel
    | colLo => exact .goesOn hres hrel
    | colHi => exact .goesOn hres hrel
    | data o =>
      simp only [afterFlush, afterPage]
      split_ifs
      · exact .goesOn hres hrel
      · exact .goesOn hres hrel
      · exact .flushCompleted p _ hq rfl rfl
  · exact .of_emit_err he _

theorem SeqChange.seqEnd {s t : State} (h : SeqChange s t) : SeqEnd s t := by
  cases h with
  | stayed => exact .goesOn rfl rfl
  | initStep ctx k => exact afterInit_seqEnd _ _
  | flushStep p ph ctrl payload hq => exact afterFlush_seqEnd hq _ _ _

/-- A step of a running operation that ends in an error has failed. -/
theorem SeqEnd.ctl_of_err {s t : State} {e : Error} (h : SeqEnd s t) (hs : s.result = .none) (ht : t.result = .err e) :
    t.ctl = s.ctl.afterFailure s.seq := by
  cases h with
  | goesOn hres => simp [hres, hs] at ht
  | initCompleted hres => simp [hres] at ht
  | flushCompleted p ph hq hseq hres => simp [hres] at ht
  | failed e' hseq hres hctl => exact hctl

/-- A step of a FLUSH that fails at page `p` leaves of the controller the cells of the pages before it (R215, U1). -/
theorem ctl_of_failed_flushStep {s t : State} {p : Fin 16} {ph : Phase} {e : Error} (hq : s.seq = .flush p ph)
    (hs : s.result = .none) (hstep : seqStep s = .next t) (ht : t.result = .err e) : t.ctl = s.ctl.fail (128 * p.val) := by
  rw [(seqStep_change hstep).seqEnd.ctl_of_err hs ht, hq, Controller.afterFailure]

/-- A step of an initialise walk that fails leaves nothing of the controller (U7). -/
theorem nothingDetermined_of_failed_initStep {s t : State} {ctx : Ctx} {k : Fin 15} {e : Error}
    (hq : s.seq = .init ctx k) (hs : s.result = .none) (hstep : seqStep s = .next t) (ht : t.result = .err e) :
    t.ctl.NothingDetermined := by
  rw [(seqStep_change hstep).seqEnd.ctl_of_err hs ht, hq]
  exact s.ctl.fail_zero_nothingDetermined

/-! The framer procedures called on their own (42_transport_framer R170, R175). -/

theorem exec_framer_next {s t : State} {i : Instr} {bytes : List Byte} (hi : i = .sendCommand bytes ∨ i = .sendData bytes)
    (h : exec i s = .next t) : ∃ f, t = finishFramer f := by
  rcases hi with rfl | rfl
  · simp only [exec, execSendCommand] at h
    split_ifs at h
    cases h
    exact ⟨_, rfl⟩
  · simp only [exec, execSendData] at h
    split_ifs at h
    cases h
    exact ⟨_, rfl⟩

/-- A framer procedure that returned an error has left nothing of the controller (R175). -/
theorem nothingDetermined_of_framer_err {f : State × FrameEnd} {c : Cause}
    (h : (finishFramer f).ret = .framer (.err c)) : (finishFramer f).ctl.NothingDetermined := by
  obtain ⟨u, _ | c'⟩ := f
  · simp at h
  · exact u.ctl.fail_zero_nothingDetermined

theorem finishFramer_ctl_cases (f : State × FrameEnd) :
    (finishFramer f).ctl = f.1.ctl ∨ (finishFramer f).ctl = f.1.ctl.fail 0 := by
  obtain ⟨u, _ | c⟩ := f
  · exact .inl rfl
  · exact .inr rfl

/-! How much counts as known while only the cells below an index do (R68). -/

/-- Only a part of what counted as known below `n` counts as known. -/
def Reliance.Within (n : Nat) (r : Reliance) : Prop := r = .below n ∨ r = .below 0 ∨ r = .unknown

theorem finishFramer_reliance_within {f : State × FrameEnd} {n : Nat} (h : f.1.ctl.reliance = .below n) :
    (finishFramer f).ctl.reliance.Within n := by
  rcases finishFramer_ctl_cases f with e | e
  · exact .inl (e ▸ h)
  · exact .inr (.inl (e ▸ Controller.fail_reliance_below (by simp [h]) 0))

theorem Controller.afterCancel_reliance_within {c : Controller} {n : Nat} (h : c.reliance = .below n) (q : Seq) :
    (c.afterCancel q).reliance.Within n := by
  rcases c.afterCancel_reliance q with e | e
  · exact .inl (e.trans h)
  · exact .inr (.inr e)

/-- No call makes more of the controller count as known. -/
theorem ExecChange.reliance_within {s t : State} {n : Nat} (hr : s.ctl.reliance = .below n) (h : ExecChange s t) :
    t.ctl.reliance.Within n := by
  cases h with
  | buildFailed hi =>
    have hq := (State.builderIdle_iff.mp hi).1
    exact .inl (by simpa [hq, Controller.afterFailure] using hr)
  | cancelledBuild => exact Controller.afterCancel_reliance_within hr _
  | cancelledOperation => exact Controller.afterCancel_reliance_within hr _
  | dropped => exact Controller.afterCancel_reliance_within hr _
  | commandSent cmd => exact finishFramer_reliance_within ((emit_reliance _ _ _).trans hr)
  | dataSent data => exact finishFramer_reliance_within ((splitFrom_reliance _ _ _ _).trans hr)
  | _ => exact .inl hr

/-- From `s` to `t` a FLUSH ended: `OK`, or with an error at its page. -/
def State.FlushEnded (s t : State) : Prop :=
  ∃ p ph, s.seq = .flush p ph ∧ t.seq = .idle
    ∧ (t.result = .ok ∨ ∃ e, t.result = .err e ∧ t.ctl.reliance = .below (128 * p.val))

/-- A step of the sequencer makes more of the controller count as known only when it ends a FLUSH. -/
theorem SeqEnd.reliance_within {s t : State} {n : Nat} (hr : s.ctl.reliance = .below n) (h : SeqEnd s t) :
    t.ctl.reliance.Within n ∨ s.FlushEnded t := by
  cases h with
  | goesOn _ hrel => exact .inl (.inl (hrel.trans hr))
  | initCompleted _ hrel => exact .inl (.inl (hrel.trans hr))
  | flushCompleted p ph hq hseq hres => exact .inr ⟨p, ph, hq, hseq, .inl hres⟩
  | failed e hseq hres hctl =>
    have hfail := fun m => Controller.fail_reliance_below (c := s.ctl) (by simp [hr]) m
    rcases hq : s.seq with _ | ⟨ctx, k⟩ | ⟨p, ph⟩
    · rw [hq] at hctl
      exact .inl (.inl (hctl ▸ hr))
    · rw [hq] at hctl
      exact .inl (.inr (.inl (hctl ▸ hfail 0)))
    · rw [hq] at hctl
      exact .inr ⟨p, ph, hq, hseq, .inr ⟨e, hres, hctl ▸ hfail _⟩⟩

theorem step_reliance_within {s t : State} {n : Nat} (hr : s.ctl.reliance = .below n) (hstep : step s = .next t) :
    t.ctl.reliance.Within n ∨ s.FlushEnded t := by
  rcases step_cases hstep with ⟨_, port, i, _, _, he⟩ | ⟨port, _, he⟩ | ⟨_, rfl⟩
  · exact .inl ((exec_change he).reliance_within (s := s.setPort port) hr)
  · exact (seqStep_change he).seqEnd.reliance_within (s := s.setPort port) hr
  · exact .inl (.inl hr)

/-- Settles O60: each failure leaves the controller as `Controller.fail` does, with the pages before its own or with none; and
what counts as known grows only at the end of a FLUSH. -/
theorem failureForgetsTheController : Obligations.FailureForgetsTheController := by
  refine ⟨fun s t p ph e hq hs hstep ht => ?flush, fun s t ctx k e hq hs hstep ht => ?walk,
    fun s t i bytes c hi hexec ht => ?framer, fun c n h => ?known, fun s t n hr hstep => ?later⟩
  case flush =>
    have hctl := ctl_of_failed_flushStep hq hs hstep ht
    have hptr : t.ctl.NoPointers := hctl ▸ s.ctl.fail_noPointers _
    refine ⟨fun i hi => ?_, fun hr => hctl ▸ Controller.fail_reliance_below hr _,
      fun hr => hctl ▸ Controller.fail_unknown hr _, fun i hi => ?_, hptr⟩
    · rw [hctl, Controller.lookup_fail, if_pos hi]
    · rw [hctl, Controller.lookup_fail, if_neg (Nat.not_lt.mpr hi)]
  case walk => exact nothingDetermined_of_failed_initStep hq hs hstep ht
  case framer =>
    obtain ⟨f, rfl⟩ := exec_framer_next hi hexec
    exact nothingDetermined_of_framer_err ht
  case known =>
    obtain ⟨hpage, hlo, hhi⟩ := Controller.known_noPointers h
    exact ⟨hpage, hlo, hhi, Controller.lookup_known_below h⟩
  case later =>
    rcases step_reliance_within hr hstep with (h | h | h) | h
    · exact .inl h
    · exact .inr (.inl h)
    · exact .inr (.inr (.inl h))
    · exact .inr (.inr (.inr h))

end Sys2Proof.Machine

namespace Sys2Proof

/-! Masks and fields of a byte (30_encoding R86). -/

theorem toNat_and_mask {mask : Byte} (k : Nat) (hm : mask.toNat = 2 ^ k - 1) (b : Byte) :
    (b &&& mask).toNat = b.toNat % 2 ^ k := by
  rw [BitVec.toNat_and, hm, Nat.and_two_pow_sub_one_eq_mod]

theorem and_mask_of_lt {mask b : Byte} (k : Nat) (hm : mask.toNat = 2 ^ k - 1) (hb : b.toNat < 2 ^ k) :
    b &&& mask = b :=
  BitVec.eq_of_toNat_eq (by rw [toNat_and_mask k hm, Nat.mod_eq_of_lt hb])

/-- A field of `k` bits joined to bits above it adds its number to theirs. -/
theorem toNat_or_field {above field : Byte} (k : Nat) (ha : 2 ^ k ∣ above.toNat) (hf : field.toNat < 2 ^ k) :
    (above ||| field).toNat = above.toNat + field.toNat := by
  obtain ⟨q, hq⟩ := ha
  rw [BitVec.toNat_or, hq, Nat.two_pow_add_eq_or_of_lt hf]

theorem or_field_range {field : Byte} (above : Byte) (k : Nat) (ha : 2 ^ k ∣ above.toNat) (hf : field.toNat < 2 ^ k) :
    above.toNat ≤ (above ||| field).toNat ∧ (above ||| field).toNat < above.toNat + 2 ^ k := by
  rw [toNat_or_field k ha hf]
  omega

/-- The mask reads back a field that was joined to bits above it. -/
theorem or_field_and_mask {above field mask : Byte} (k : Nat) (hm : mask.toNat = 2 ^ k - 1) (ha : 2 ^ k ∣ above.toNat)
    (hf : field.toNat < 2 ^ k) : (above ||| field) &&& mask = field := by
  apply BitVec.eq_of_toNat_eq
  rw [toNat_and_mask k hm, toNat_or_field k ha hf, Nat.add_mod, Nat.mod_eq_zero_of_dvd ha, Nat.zero_add, Nat.mod_mod,
    Nat.mod_eq_of_lt hf]

/-- A byte among the `2 ^ k` from `above` on is `above` joined with its own `k` low bits. -/
theorem or_and_mask {b mask : Byte} (above : Byte) (k : Nat) (hm : mask.toNat = 2 ^ k - 1) (ha : 2 ^ k ∣ above.toNat)
    (hlo : above.toNat ≤ b.toNat) (hhi : b.toNat < above.toNat + 2 ^ k) : above ||| (b &&& mask) = b := by
  obtain ⟨r, hr⟩ := Nat.exists_eq_add_of_le hlo
  have hlt : r < 2 ^ k := by omega
  have hmod : (b &&& mask).toNat = r := by
    rw [toNat_and_mask k hm, hr, Nat.add_mod, Nat.mod_eq_zero_of_dvd ha, Nat.zero_add, Nat.mod_mod, Nat.mod_eq_of_lt hlt]
  exact BitVec.eq_of_toNat_eq (by rw [toNat_or_field k ha (hmod ▸ hlt), hmod, hr])

/-! The two nibbles of a byte. -/

theorem toNat_shiftLeft_four (b : Byte) : (b <<< 4).toNat = b.toNat * 16 % 256 := by
  rw [BitVec.toNat_shiftLeft, Nat.shiftLeft_eq]

theorem toNat_shiftRight_four (b : Byte) : (b >>> 4).toNat = b.toNat / 16 := by
  rw [BitVec.toNat_ushiftRight, Nat.shiftRight_eq_div_pow]

theorem lowNibble_lt (b : Byte) : (b &&& 0x0F).toNat < 16 := by
  rw [toNat_and_mask 4 rfl]
  omega

theorem highNibble_lt (b : Byte) : (b >>> 4).toNat < 16 := by
  rw [toNat_shiftRight_four]
  omega

theorem lowNibble_lowNibble (b : Byte) : b &&& 0x0F &&& 0x0F = b &&& 0x0F := and_mask_of_lt 4 rfl (lowNibble_lt b)

theorem highNibble_lowNibble (b : Byte) : b >>> 4 &&& (0x0F : Byte) = b >>> 4 := and_mask_of_lt 4 rfl (highNibble_lt b)

theorem dvd_shiftLeft_four (b : Byte) : 2 ^ 4 ∣ (b <<< 4).toNat := by
  rw [toNat_shiftLeft_four]
  omega

theorem shiftRight_shiftLeft_four (b : Byte) : b >>> 4 <<< 4 = b &&& 0xF0 := BitVec.shiftLeft_ushiftRight

/-- The high nibble of two joined nibbles. -/
theorem nibbles_shiftRight {hi lo : Byte} (hh : hi.toNat < 16) (hl : lo.toNat < 16) : (hi <<< 4 ||| lo) >>> 4 = hi := by
  apply BitVec.eq_of_toNat_eq
  rw [toNat_shiftRight_four, toNat_or_field 4 (dvd_shiftLeft_four hi) hl, toNat_shiftLeft_four]
  omega

theorem shiftLeft_shiftRight_four {n : Byte} (hn : n.toNat < 16) : n <<< 4 >>> 4 = n := by
  simpa using nibbles_shiftRight (lo := 0) hn (by decide)

/-- A byte is its two nibbles joined. -/
theorem nibbles_join (b : Byte) : b >>> 4 <<< 4 ||| (b &&& (0x0F : Byte)) = b := by
  have hh : (b >>> 4 <<< 4).toNat = b.toNat / 16 * 16 := by
    rw [toNat_shiftLeft_four, toNat_shiftRight_four]
    omega
  exact or_and_mask _ 4 rfl (dvd_shiftLeft_four _) (by omega) (by omega)

/-! The commands that carry a field in their one byte (format `C1F`, R85): what they encode to, and where that byte lies. -/

theorem Catalog.columnLow_eq (col : Byte) : Catalog.columnLow col = [col &&& 0x0F] := by
  simp [Catalog.columnLow]

theorem Catalog.columnHigh_eq (col : Byte) : Catalog.columnHigh col = [(0x10 : Byte) ||| (col >>> 4)] :=
  congrArg (fun n => [(0x10 : Byte) ||| n]) (highNibble_lowNibble col)

theorem columnHigh_range (col : Byte) :
    0x10 ≤ ((0x10 : Byte) ||| (col >>> 4)).toNat ∧ ((0x10 : Byte) ||| (col >>> 4)).toNat < 0x20 :=
  or_field_range 0x10 4 (by decide) (highNibble_lt col)

theorem startLineShort_range {line : Byte} (h : line.toNat ≤ 63) :
    0x40 ≤ ((0x40 : Byte) ||| line).toNat ∧ ((0x40 : Byte) ||| line).toNat < 0x80 :=
  or_field_range 0x40 6 (by decide) (Nat.lt_succ_of_le h)

theorem pageAddress_range (page : Byte) :
    0xB0 ≤ ((0xB0 : Byte) ||| (page &&& 0x0F)).toNat ∧ ((0xB0 : Byte) ||| (page &&& 0x0F)).toNat < 0xC0 :=
  or_field_range 0xB0 4 (by decide) (lowNibble_lt page)

/-! What the decoder reads in each range of `C1F` bytes (R87). -/

theorem decodeCommand_one {b : Byte} (h : takesArgument b = false) : decodeCommand [b] = decodeOneByte b := by
  simp [decodeCommand, h]

theorem decodeOneByte_columnLow {b : Byte} (h : b.toNat < 0x10) : decodeOneByte b = .instr (.columnLow (b &&& 0x0F)) :=
  if_pos h

theorem decodeOneByte_columnHigh {b : Byte} (h : 0x10 ≤ b.toNat ∧ b.toNat < 0x20) :
    decodeOneByte b = .instr (.columnHigh ((b &&& 0x0F) <<< 4)) := by
  rw [decodeOneByte, if_neg (by omega), if_pos h.2]

theorem decodeOneByte_startLineShort {b : Byte} (h : 0x40 ≤ b.toNat ∧ b.toNat < 0x80) :
    decodeOneByte b = .instr (.startLineShort (b &&& 0x3F)) := by
  rw [decodeOneByte, if_neg (by omega), if_neg (by omega), if_pos h]

theorem decodeOneByte_pageAddress {b : Byte} (h : 0xB0 ≤ b.toNat ∧ b.toNat < 0xC0) :
    decodeOneByte b = .instr (.pageAddress (b &&& 0x0F)) := by
  rw [decodeOneByte, if_neg (by omega), if_neg (by omega), if_neg (by omega), if_pos h]

/-! Decoding what the commands with masked or joined operands encode to. -/

theorem decodeCommand_columnLow (col : Byte) :
    decodeCommand (Catalog.columnLow col) = .instr (.columnLow (col &&& 0x0F)) := by
  have hl := lowNibble_lt col
  rw [Catalog.columnLow_eq, decodeCommand_one (takesArgument_low _ (by omega)), decodeOneByte_columnLow hl,
    lowNibble_lowNibble]

theorem decodeCommand_columnHigh (col : Byte) :
    decodeCommand (Catalog.columnHigh col) = .instr (.columnHigh (col &&& 0xF0)) := by
  have hr := columnHigh_range col
  rw [Catalog.columnHigh_eq, decodeCommand_one (takesArgument_low _ (by omega)), decodeOneByte_columnHigh hr,
    or_field_and_mask 4 rfl (by decide) (highNibble_lt col), shiftRight_shiftLeft_four]

theorem decodeCommand_startLineShort {line : Byte} (h : line.toNat ≤ 63) :
    decodeCommand (Catalog.startLineShort line) = .instr (.startLineShort line) := by
  have hr := startLineShort_range h
  rw [Catalog.startLineShort, decodeCommand_one (takesArgument_low _ hr.2), decodeOneByte_startLineShort hr,
    or_field_and_mask 6 rfl (by decide) (Nat.lt_succ_of_le h)]

theorem decodeCommand_pageAddress (page : Byte) :
    decodeCommand (Catalog.pageAddress page) = .instr (.pageAddress (page &&& 0x0F)) := by
  rw [Catalog.pageAddress, decodeCommand_one (pageAddress_alone page), decodeOneByte_pageAddress (pageAddress_range page),
    or_field_and_mask 4 rfl (by decide) (lowNibble_lt page)]

theorem decodeCommand_startLine (line : Byte) :
    decodeCommand (Catalog.startLine line) = .instr (.startLine (line &&& 0x7F)) := by
  have h : (line &&& 0x7F).toNat < 0x80 := by
    rw [toNat_and_mask 7 rfl]
    omega
  exact if_pos h

theorem decodeCommand_clockDivide (freq ratio : Byte) :
    decodeCommand (Catalog.clockDivide freq ratio) = .instr (.clockDivide (freq &&& 0x0F) (ratio &&& 0x0F)) := by
  have hl := lowNibble_lt ratio
  have hread : ∀ arg : Byte, decodeCommand [0xD5, arg] = .instr (.clockDivide (arg >>> 4) (arg &&& 0x0F)) := fun _ => rfl
  rw [Catalog.clockDivide, hread, nibbles_shiftRight (lowNibble_lt freq) hl,
    or_field_and_mask 4 rfl (dvd_shiftLeft_four _) hl]

theorem decode_encode {i : Instr} (hw : i.wf = true) : decode (encode i) = .instr i.canon := by
  cases i with
  | columnLow col => exact decodeCommand_columnLow col
  | columnHigh col => exact decodeCommand_columnHigh col
  | startLineShort line => exact decodeCommand_startLineShort (of_decide_eq_true hw)
  | pageAddress page => exact decodeCommand_pageAddress page
  | startLine line => exact decodeCommand_startLine line
  | clockDivide freq ratio => exact decodeCommand_clockDivide freq ratio
  -- The others are named by a constant and keep their operands whole.
  | _ => rfl

theorem Instr.canon_eq_self {i : Instr} (hw : i.wf = true) (hlow : ∀ c, i ≠ .columnLow c)
    (hhigh : ∀ c, i ≠ .columnHigh c) : i.canon = i := by
  cases i with
  | startLine line =>
    have h : line.toNat ≤ 127 := of_decide_eq_true hw
    rw [Instr.canon, and_mask_of_lt 7 rfl (by omega)]
  | clockDivide freq ratio =>
    obtain ⟨hf, hr⟩ : freq.toNat ≤ 15 ∧ ratio.toNat ≤ 15 := by simpa [Instr.wf] using hw
    rw [Instr.canon, and_mask_of_lt 4 rfl (by omega), and_mask_of_lt 4 rfl (by omega)]
  | pageAddress page =>
    have h : page.toNat ≤ 15 := of_decide_eq_true hw
    rw [Instr.canon, and_mask_of_lt 4 rfl (by omega)]
  | columnLow col => exact absurd rfl (hlow col)
  | columnHigh col => exact absurd rfl (hhigh col)
  | _ => rfl

/-- Settles O1: the first byte names the command, and the decoder's mask reads back the field that the encoder's mask kept,
which is the whole operand in its domain. -/
theorem decodeOfEncodeIsCanonical : Obligations.DecodeOfEncodeIsCanonical := fun _ hw =>
  ⟨decode_encode hw, Instr.canon_eq_self hw⟩

/-! What the decoder answers to bytes encodes to them (30_encoding R87, R89). -/

theorem Catalog.columnLow_lowNibble {b : Byte} (h : b.toNat < 0x10) : Catalog.columnLow (b &&& 0x0F) = [b] := by
  rw [Catalog.columnLow_eq, lowNibble_lowNibble, and_mask_of_lt 4 rfl h]

theorem Catalog.columnHigh_lowNibble {b : Byte} (hlo : 0x10 ≤ b.toNat) (hhi : b.toNat < 0x20) :
    Catalog.columnHigh ((b &&& 0x0F) <<< 4) = [b] := by
  rw [Catalog.columnHigh_eq, shiftLeft_shiftRight_four (lowNibble_lt b), or_and_mask 0x10 4 rfl (by decide) hlo hhi]

theorem Catalog.startLineShort_lowBits {b : Byte} (hlo : 0x40 ≤ b.toNat) (hhi : b.toNat < 0x80) :
    Catalog.startLineShort (b &&& 0x3F) = [b] := by
  rw [Catalog.startLineShort, or_and_mask 0x40 6 rfl (by decide) hlo hhi]

theorem Catalog.pageAddress_lowNibble {b : Byte} (hlo : 0xB0 ≤ b.toNat) (hhi : b.toNat < 0xC0) :
    Catalog.pageAddress (b &&& 0x0F) = [b] := by
  rw [Catalog.pageAddress, lowNibble_lowNibble, or_and_mask 0xB0 4 rfl (by decide) hlo hhi]

theorem Catalog.startLine_of_lt {line : Byte} (h : line.toNat < 0x80) : Catalog.startLine line = [0xDC, line] := by
  rw [Catalog.startLine, and_mask_of_lt 7 rfl h]

theorem Catalog.clockDivide_nibbles (arg : Byte) : Catalog.clockDivide (arg >>> 4) (arg &&& 0x0F) = [0xD5, arg] := by
  rw [Catalog.clockDivide, highNibble_lowNibble, lowNibble_lowNibble, nibbles_join]

/-- START_LINE_SHORT has its operand in its domain (R137): of the domains of `Instr.wf`, the one that an instruction read from
command bytes always meets, and that its first byte depends on. -/
def Instr.ShortLineFits (i : Instr) : Prop := ∀ line, i = .startLineShort line → line.toNat ≤ 63

theorem Instr.shortLineFits_of_wf {i : Instr} (hw : i.wf = true) : i.ShortLineFits := by
  rintro line rfl
  exact of_decide_eq_true hw

/-- If `d` is an instruction, its command bytes are `bytes`. -/
def Decoded.IsFrom (bytes : List Byte) (d : Decoded) : Prop :=
  ∀ i, d = .instr i → commandBytes i = bytes ∧ i.ShortLineFits

namespace Decoded.IsFrom

variable {bytes : List Byte}

theorem reject (e : DecodeError) : (Decoded.reject e).IsFrom bytes := nofun

theorem instr {i : Instr} (hb : commandBytes i = bytes) (hf : i.ShortLineFits) : (Decoded.instr i).IsFrom bytes := by
  rintro _ ⟨⟩
  exact ⟨hb, hf⟩

theorem ite {c : Prop} [Decidable c] {d e : Decoded} (hd : c → d.IsFrom bytes) (he : ¬ c → e.IsFrom bytes) :
    (if c then d else e).IsFrom bytes := by
  by_cases h : c
  · rw [if_pos h]
    exact hd h
  · rw [if_neg h]
    exact he h

/-- The test of a first byte that names one instruction. -/
theorem opcode {op c : Byte} {args : List Byte} {i : Instr} {e : Decoded} (hb : commandBytes i = c :: args)
    (hf : i.ShortLineFits) (he : e.IsFrom (op :: args)) : (if op = c then .instr i else e).IsFrom (op :: args) :=
  .ite (fun h => h ▸ .instr hb hf) fun _ => he

end Decoded.IsFrom

theorem decodeOneByte_isFrom (b : Byte) : (decodeOneByte b).IsFrom [b] := by
  refine .ite (fun h => .instr (Catalog.columnLow_lowNibble h) nofun) fun hlow => ?_
  refine .ite (fun h => .instr (Catalog.columnHigh_lowNibble (by omega) h) nofun) fun _ => ?_
  refine .ite (fun h => .instr (Catalog.startLineShort_lowBits h.1 h.2) ?line) fun _ => ?_
  case line =>
    rintro _ ⟨⟩
    rw [toNat_and_mask 6 rfl]
    omega
  refine .ite (fun h => .instr (Catalog.pageAddress_lowNibble h.1 h.2) nofun) fun _ => ?_
  exact .opcode rfl nofun <| .opcode rfl nofun <| .opcode rfl nofun <| .opcode rfl nofun <| .opcode rfl nofun <|
    .opcode rfl nofun <| .opcode rfl nofun <| .opcode rfl nofun <| .opcode rfl nofun <| .opcode rfl nofun <| .reject _

theorem decodeTwoByte_isFrom (op arg : Byte) : (decodeTwoByte op arg).IsFrom [op, arg] := by
  refine .opcode rfl nofun <| .opcode rfl nofun <| .opcode rfl nofun <| .ite (fun hop => ?startLine) fun _ =>
    .opcode (Catalog.clockDivide_nibbles arg) nofun <| .ite (fun hop => ?chargePump) fun _ =>
    .opcode rfl nofun <| .opcode rfl nofun <| .opcode rfl nofun <| .reject _
  case startLine => exact .ite (fun ha => .instr (hop ▸ Catalog.startLine_of_lt ha) nofun) fun _ => .reject _
  case chargePump =>
    subst hop
    exact .ite (fun ha => ha ▸ .instr rfl nofun) fun _ => .ite (fun ha => ha ▸ .instr rfl nofun) fun _ => .reject _

theorem decodeCommand_isFrom (bytes : List Byte) : (decodeCommand bytes).IsFrom bytes := by
  rcases bytes with _ | ⟨b, _ | ⟨arg, _ | ⟨c, rest⟩⟩⟩
  · exact .reject _
  · exact .ite (fun _ => .reject _) fun _ => decodeOneByte_isFrom b
  · exact .ite (fun _ => decodeTwoByte_isFrom b arg) fun _ => .reject _
  · exact .reject _

theorem encode_of_commandBytes {i : Instr} (h : commandBytes i ≠ []) : encode i = .command (commandBytes i) := by
  cases i with
  | ctrlCommand00 | ctrlCommand80 | ctrlData => exact absurd rfl h
  | connect | build | initializeOp | flush | setPixel | clear | asBytes | cancel | drop => exact absurd rfl h
  | sendCommand | sendData => exact absurd rfl h
  | _ => rfl

/-- Settles O2: along each branch of the decoder, the instruction answered has the bytes of that branch. -/
theorem commandBytesOfDecodedCommand : Obligations.CommandBytesOfDecodedCommand := by
  intro bytes i h
  obtain ⟨hb, _⟩ := decodeCommand_isFrom bytes i h
  have hne : bytes ≠ [] := by
    rintro rfl
    exact nomatch h
  rw [encode_of_commandBytes (hb ▸ hne), hb]

/-! The opcode map (30_encoding R87). -/

/-- The first bytes that the opcode map lists. -/
def InOpcodeMap (b : Byte) : Prop :=
  b.toNat < 0x20 ∨ (0x40 ≤ b.toNat ∧ b.toNat < 0x80) ∨ (0xB0 ≤ b.toNat ∧ b.toNat < 0xC0)
    ∨ b ∈ [0x81, 0xA0, 0xA1, 0xA4, 0xA5, 0xA6, 0xA7, 0xA8, 0xAD, 0xAE, 0xAF, 0xC0, 0xC8, 0xD3, 0xD5, 0xD9, 0xDB, 0xDC,
          Config.opComPins]

/-- The first of these bytes, if there is one, is listed. -/
def HeadInOpcodeMap (bytes : List Byte) : Prop := ∀ b rest, bytes = b :: rest → InOpcodeMap b

theorem HeadInOpcodeMap.cons {b : Byte} (h : InOpcodeMap b) (rest : List Byte) : HeadInOpcodeMap (b :: rest) := by
  rintro _ _ ⟨⟩
  exact h

theorem commandBytes_headInOpcodeMap {i : Instr} (hf : i.ShortLineFits) : HeadInOpcodeMap (commandBytes i) := by
  cases i with
  | columnLow col =>
    have hl := lowNibble_lt col
    rw [commandBytes, Catalog.columnLow_eq]
    exact .cons (.inl (by omega)) _
  | columnHigh col =>
    rw [commandBytes, Catalog.columnHigh_eq]
    exact .cons (.inl (columnHigh_range col).2) _
  | startLineShort line => exact .cons (.inr (.inl (startLineShort_range (hf line rfl)))) _
  | pageAddress page => exact .cons (.inr (.inr (.inl (pageAddress_range page)))) _
  | ctrlCommand00 | ctrlCommand80 | ctrlData => exact nofun
  | connect | build | initializeOp | flush | setPixel | clear | asBytes | cancel | drop => exact nofun
  | sendCommand | sendData => exact nofun
  | _ => exact .cons (.inr (.inr (.inr (by decide)))) _

/-- Settles O4: the first byte of an instruction's command bytes is listed; and command bytes that decode to an instruction are
that instruction's. -/
theorem firstBytesAreTheOpcodeMap : Obligations.FirstBytesAreTheOpcodeMap := by
  refine ⟨fun i b rest hw h => ?listed, fun b rest hnot i h => ?rejected⟩
  case listed => exact commandBytes_headInOpcodeMap (Instr.shortLineFits_of_wf hw) b rest h
  case rejected =>
    obtain ⟨hb, hf⟩ := decodeCommand_isFrom _ i h
    exact hnot (commandBytes_headInOpcodeMap hf b rest hb)

/-! The host operations' selectors (30_encoding R100). -/

theorem decodeHost_reserved {sel : BitVec 4} (h : 9 ≤ sel.toNat) (addr : Byte) (x y : Coord) (on : Bool) :
    decodeHost sel addr x y on = .reject (.reservedSelector sel.toNat) := by
  obtain ⟨n, hn⟩ := Nat.exists_eq_add_of_le' h
  simp [decodeHost, hn]

end Sys2Proof

namespace Sys2Proof.Machine

theorem runRequest_of_reject {r : Request} {e : DecodeError} (hd : decode r = .reject e) (s : State) :
    runRequest r s = .refused (.undecodable e) := by
  simp [runRequest, hd]

/-- Settles O6: the decoder looks at the selector alone, and what it rejects is refused. -/
theorem hostSelectors : Obligations.HostSelectors := fun addr x y on =>
  ⟨rfl, rfl, rfl, rfl, rfl, rfl, rfl, rfl, rfl,
    fun _ s h => runRequest_of_reject (r := .host _ addr x y on) (decodeHost_reserved h ..) s⟩

/-- Settles O19: the meaning of a control byte returns that byte. -/
theorem controlBytes : Obligations.ControlBytes := ⟨fun _ => rfl, fun _ => rfl, fun _ => rfl, rfl, rfl, rfl⟩

/-! The pseudo-operations in the walks (30_encoding R91). -/

theorem orientation_commandBytes (cfg : Straps) :
    (expandPseudo cfg .orientation).map commandBytes = [initCmd cfg 6, initCmd cfg 7] := rfl

theorem ramDisplay_commandBytes (cfg : Straps) :
    (expandPseudo cfg .ramDisplay).map commandBytes = [initCmd cfg 12, initCmd cfg 13] := rfl

theorem chargePump_commandBytes (cfg : Straps) :
    (expandPseudo cfg (.chargePump true)).map commandBytes = [initCmd cfg 5] := rfl

/-- SELECT(p) is the three select frames of page `p` of FLUSH (R214). -/
theorem select_flushFrames (s : State) (p : Fin 16) :
    (expandPseudo s.cfg (.select (BitVec.ofNat 8 p.val))).map (fun i => some (s.params.ctrlCmd.byte, commandBytes i))
      = [flushFrame s p .page, flushFrame s p .colLo, flushFrame s p .colHi] := rfl

/-- Settles O59: the expansions are R91's by definition, and the frames that they stand for follow. -/
theorem pseudoOperationsAreSent : Obligations.PseudoOperationsAreSent :=
  ⟨fun cfg _ => ⟨rfl, rfl, rfl, rfl, rfl, rfl, orientation_commandBytes cfg, ramDisplay_commandBytes cfg,
    chargePump_commandBytes cfg⟩, select_flushFrames⟩

end Sys2Proof.Machine

namespace Sys2Proof.Machine

/-! What SET_PIXEL changes, byte by byte and bit by bit (40_framebuffer_ops R112, R113). -/

theorem readByte_drawPixel_of_ne {m : List Host.Cell} (hm : Memory.wf m = true) (x y : Coord) (on : Bool) {i : Nat}
    (hi : i ≠ pixelIndex x y) : readByte (drawPixel x y on m) i = readByte m i := by
  rw [readByte_drawPixel hm, if_neg fun h => hi h.2]

/-- The bits of the mapped byte: the mapped one is `on`, the others stay. -/
theorem getLsbD_readByte_drawPixel {m : List Host.Cell} (hm : Memory.wf m = true) {x y : Coord}
    (hr : pixelInRange x y = true) (on : Bool) {k : Nat} (hk : k < 8) :
    (readByte (drawPixel x y on m) (pixelIndex x y)).getLsbD k
      = if k = pixelBit y then on else (readByte m (pixelIndex x y)).getLsbD k := by
  rw [readByte_drawPixel hm, if_pos ⟨hr, rfl⟩, getLsbD_putBit _ _ _ _ (pixelBit_lt y) hk]

/-- Settles O20: the framebuffer after SET_PIXEL is `drawPixel`, whose bytes and bits are known. -/
theorem setPixelWritesOneBit : Obligations.SetPixelWritesOneBit := by
  intro s x y on hq hst hm
  have hs : s.sessionIdle = true := State.sessionIdle_iff.mpr ⟨hq, hst⟩
  rw [← pixelInRange_iff]
  refine ⟨fun hout => ?outOfRange, fun hr => ⟨_, exec_setPixel_idle hs x y on, ?otherBytes, ?mappedByte⟩⟩
  case outOfRange => exact exec_setPixel_outOfRange hs (Bool.eq_false_of_not_eq_true hout)
  case otherBytes => exact fun i hi => readByte_drawPixel_of_ne hm x y on hi
  case mappedByte => exact fun k hk => getLsbD_readByte_drawPixel hm hr on hk

/-! PIXEL after SET_PIXEL (40_framebuffer_ops R116, R119 a, b). -/

theorem pixel_of_inRange {x y : Coord} (hr : pixelInRange x y = true) (m : List Host.Cell) :
    pixel m x y = some ((readByte m (pixelIndex x y)).getLsbD (pixelBit y)) :=
  if_pos hr

theorem pixel_drawPixel_same {m : List Host.Cell} (hm : Memory.wf m = true) {x y : Coord} (hr : pixelInRange x y = true)
    (on : Bool) : pixel (drawPixel x y on m) x y = some on := by
  rw [pixel_of_inRange hr, getLsbD_readByte_drawPixel hm hr on (pixelBit_lt y), if_pos rfl]

/-- Another pixel lies in another byte, or in the same byte at another bit. -/
theorem pixel_drawPixel_of_ne {m : List Host.Cell} (hm : Memory.wf m = true) {x y x' y' : Coord}
    (hr : pixelInRange x y = true) (hr' : pixelInRange x' y' = true) (hne : (x', y') ≠ (x, y)) (on : Bool) :
    pixel (drawPixel x y on m) x' y' = pixel m x' y' := by
  rw [pixel_of_inRange hr', pixel_of_inRange hr']
  by_cases hi : pixelIndex x y = pixelIndex x' y'
  · have hbit : pixelBit y ≠ pixelBit y' := pixelBit_ne_of_pixelIndex_eq hr hr' hne hi
    rw [← hi, getLsbD_readByte_drawPixel hm hr on (pixelBit_lt y'), if_neg hbit.symm]
  · rw [readByte_drawPixel_of_ne hm x y on (Ne.symm hi)]

/-- Settles O22: PIXEL reads the bit that SET_PIXEL wrote, and for every other pixel a bit that it left. -/
theorem pixelAfterSetPixel : Obligations.PixelAfterSetPixel := by
  intro s x y on hq hst hm hr
  have hs : s.sessionIdle = true := State.sessionIdle_iff.mpr ⟨hq, hst⟩
  exact ⟨_, exec_setPixel_idle hs x y on, pixel_drawPixel_same hm hr on,
    fun x' y' hr' hne => pixel_drawPixel_of_ne hm hr hr' hne on⟩

/-! CLEAR (40_framebuffer_ops R114). -/

/-- The byte that CLEAR(on) fills with. -/
def clearByte (on : Bool) : Byte := if on then 0xFF else 0x00

theorem getLsbD_clearByte (on : Bool) {k : Nat} (hk : k < 8) : (clearByte on).getLsbD k = on := by
  revert on k
  decide

theorem exec_clear_idle {s : State} (h : s.sessionIdle = true) (on : Bool) :
    exec (.clear on) s = .next (s.setFb (filled (clearByte on))) :=
  if_pos h

theorem pixel_filled_clearByte (on : Bool) {x y : Coord} (hr : pixelInRange x y = true) :
    pixel (filled (clearByte on)) x y = some on := by
  rw [pixel_of_inRange hr, readByte_filled _ _ (pixelIndex_lt hr), getLsbD_clearByte on (pixelBit_lt y)]

/-- Settles O24: the framebuffer after CLEAR is filled with one byte, each bit of which is `on`. -/
theorem clearFillsFramebuffer : Obligations.ClearFillsFramebuffer := by
  intro s on hq hst
  have hs : s.sessionIdle = true := State.sessionIdle_iff.mpr ⟨hq, hst⟩
  exact ⟨_, exec_clear_idle hs on, readByte_filled (clearByte on), fun _ _ hr => pixel_filled_clearByte on hr⟩

/-! AS_BYTES (40_framebuffer_ops R115). -/

theorem exec_asBytes_idle {s : State} (h : s.sessionIdle = true) :
    exec .asBytes s = .next (s.returnBytes (fbBytes s.fb 0 2048)) := by
  rw [exec, execAsBytes, if_pos h, memRead_eq _ 0 2048 (by omega)]
  rfl

theorem getElem?_fbBytes (m : List Host.Cell) (a : Nat) {n i : Nat} (hi : i < n) :
    (fbBytes m a n)[i]? = some (readByte m (a + i)) := by
  simp [fbBytes, hi]

/-- Settles O25: AS_BYTES returns the bytes that `fbBytes` lists from index 0 on. -/
theorem asBytesReturnsFramebuffer : Obligations.AsBytesReturnsFramebuffer := by
  intro s hq hst
  have hs : s.sessionIdle = true := State.sessionIdle_iff.mpr ⟨hq, hst⟩
  refine ⟨_, exec_asBytes_idle hs, fbBytes_length .., fun i hi => ?byte⟩
  case byte => rw [getElem?_fbBytes s.fb 0 hi, Nat.zero_add]

end Sys2Proof.Machine

namespace Sys2Proof

/-! Distinctness of the catalog (41_command_catalog R156). -/

/-- The decoder reads from the bytes what they determine of the command. -/
theorem canon_eq_of_commandBytes_eq {i j : Instr} (hi : i.wf = true) (hj : j.wf = true) (hne : commandBytes i ≠ [])
    (h : commandBytes i = commandBytes j) : i.canon = j.canon := by
  have henc : encode i = encode j := by rw [encode_of_commandBytes hne, encode_of_commandBytes (h ▸ hne), h]
  have hdec : Decoded.instr i.canon = .instr j.canon := by rw [← decode_encode hi, ← decode_encode hj, henc]
  exact Decoded.instr.inj hdec

theorem lowNibble_eq_of_columnLow_eq {c d : Byte} (h : Catalog.columnLow c = Catalog.columnLow d) :
    c &&& 0x0F = d &&& 0x0F := by
  have hdec := congrArg decodeCommand h
  rw [decodeCommand_columnLow, decodeCommand_columnLow] at hdec
  exact Instr.columnLow.inj (Decoded.instr.inj hdec)

theorem highNibble_eq_of_columnHigh_eq {c d : Byte} (h : Catalog.columnHigh c = Catalog.columnHigh d) :
    c &&& 0xF0 = d &&& 0xF0 := by
  have hdec := congrArg decodeCommand h
  rw [decodeCommand_columnHigh, decodeCommand_columnHigh] at hdec
  exact Instr.columnHigh.inj (Decoded.instr.inj hdec)

/-- Settles O3: bytes decode to one command, and a column is its two nibbles joined. -/
theorem catalogEntriesAreDistinct : Obligations.CatalogEntriesAreDistinct := by
  refine ⟨fun _ _ hi hj hne h => canon_eq_of_commandBytes_eq hi hj hne h, fun c d hlow hhigh => ?column⟩
  case column =>
    rw [← nibbles_join c, ← nibbles_join d, shiftRight_shiftLeft_four, shiftRight_shiftLeft_four,
      highNibble_eq_of_columnHigh_eq hhigh, lowNibble_eq_of_columnLow_eq hlow]

/-- Settles O5: each word is what the encoder gives for its instruction, whose operands the encoding keeps. -/
theorem sampleWordsDecode : Obligations.SampleWordsDecode :=
  ⟨decode_encode (i := .displayOff) rfl, decode_encode (i := .contrast 0x2F) rfl, decode_encode (i := .startLine 127) rfl,
    decode_encode (i := .clockDivide 5 1) rfl, decode_encode (i := .chargePumpOn) rfl,
    decode_encode (i := .comScanRemapped) rfl, decode_encode (i := .pageAddress 5) rfl,
    decode_encode (i := .columnLow 15) rfl, decode_encode (i := .columnHigh 112) rfl, decode_encode (i := .comPins 0x12) rfl,
    decode_encode (i := .ctrlCommand80) rfl, decode_encode (i := .connect 0x3C) rfl,
    decode_encode (i := .setPixel 5 10 true) rfl⟩

/-! The catalog entries that the block never sends (41_command_catalog R157). -/

/-- R157's list of catalog entries. -/
def Instr.neverSent : Instr → Bool
  | .chargePumpOff => true
  | .entireDisplayForce => true
  | .displayInverted => true
  | .startLineShort _ => true
  | _ => false

theorem Instr.neverSent_canon (i : Instr) : i.canon.neverSent = i.neverSent := by
  cases i <;> rfl

/-- A catalog command, with its operands in their domains, that is not on R157's list. -/
structure Instr.Sendable (i : Instr) : Prop where
  wf : i.wf = true
  hasBytes : commandBytes i ≠ []
  notListed : i.neverSent = false

/-- The bytes tell a command that may be sent from one that never is. -/
theorem Instr.Sendable.commandBytes_ne {i j : Instr} (h : i.Sendable) (hj : j.wf = true) (hn : j.neverSent = true) :
    commandBytes i ≠ commandBytes j := by
  intro heq
  have hcanon := canon_eq_of_commandBytes_eq h.wf hj h.hasBytes heq
  have hlisted : i.neverSent = true := by rw [← i.neverSent_canon, hcanon, j.neverSent_canon, hn]
  exact Bool.false_ne_true (h.notListed.symm.trans hlisted)

theorem nibble_setWidth_lt (n : BitVec 4) : (n.setWidth 8 : Byte).toNat < 16 := by
  rw [BitVec.toNat_setWidth]
  omega

end Sys2Proof

namespace Sys2Proof.Machine

theorem segmentRemap_sendable (cfg : Straps) : (segmentRemap cfg).Sendable := by
  rw [segmentRemap]
  split_ifs
  · exact ⟨rfl, nofun, rfl⟩
  · exact ⟨rfl, nofun, rfl⟩

theorem comScan_sendable (cfg : Straps) : (comScan cfg).Sendable := by
  rw [comScan]
  split_ifs
  · exact ⟨rfl, nofun, rfl⟩
  · exact ⟨rfl, nofun, rfl⟩

theorem clockDivide_nibbles_wf (freq ratio : BitVec 4) :
    (Instr.clockDivide (freq.setWidth 8) (ratio.setWidth 8)).wf = true := by
  have hf := nibble_setWidth_lt freq
  have hr := nibble_setWidth_lt ratio
  simp only [Instr.wf, Bool.and_eq_true, decide_eq_true_eq]
  omega

/-- Every frame of the initialise table (R191) is a command that may be sent. -/
theorem initInstr_sendable (cfg : Straps) (k : Fin 15) : (initInstr cfg k).Sendable := by
  match k with
  | 1 => exact ⟨clockDivide_nibbles_wf _ _, nofun, rfl⟩
  | 6 => exact segmentRemap_sendable cfg
  | 7 => exact comScan_sendable cfg
  | 0 | 2 | 3 | 4 | 5 | 8 | 9 | 10 | 11 | 12 | 13 | 14 => exact ⟨rfl, nofun, rfl⟩

theorem initCmd_ne {j : Instr} (hj : j.wf = true) (hn : j.neverSent = true) (cfg : Straps) (k : Fin 15) :
    initCmd cfg k ≠ commandBytes j :=
  (initInstr_sendable cfg k).commandBytes_ne hj hn

/-- R214: a frame of FLUSH that is no data frame carries a command. -/
theorem flushFrame_sendable {s : State} {p : Fin 16} {ph : Phase} {payload : List Byte}
    (hf : flushFrame s p ph = some (s.params.ctrlCmd.byte, payload)) : ∃ i : Instr, i.Sendable ∧ payload = commandBytes i := by
  cases ph with
  | page =>
    cases hf
    have hp : (BitVec.ofNat 8 p.val : Byte).toNat ≤ 15 := by
      rw [BitVec.toNat_ofNat]
      omega
    exact ⟨.pageAddress (BitVec.ofNat 8 p.val), ⟨decide_eq_true hp, nofun, rfl⟩, rfl⟩
  | colLo => cases hf; exact ⟨.columnLow 0, ⟨rfl, nofun, rfl⟩, rfl⟩
  | colHi => cases hf; exact ⟨.columnHigh 0, ⟨rfl, nofun, rfl⟩, rfl⟩
  | data o =>
    rw [flushFrame_data] at hf
    have hctrl : ctrlData = s.params.ctrlCmd.byte := congrArg Prod.fst (Option.some.inj hf)
    exact absurd hctrl.symm (ctrlCmd_byte_ne_ctrlData _)

/-! What a catalog command returns (41_command_catalog R130). -/

/-- The meaning of a catalog command hands its bytes to the caller, in every state. -/
theorem returns_commandBytes {i : Instr} (hne : commandBytes i ≠ []) (hf : i.ShortLineFits) : Returns i (commandBytes i) := by
  intro s
  cases i with
  | startLineShort line => exact if_pos (Nat.lt_succ_of_le (hf line rfl))
  | ctrlCommand00 | ctrlCommand80 | ctrlData => exact absurd rfl hne
  | connect | build | initializeOp | flush | setPixel | clear | asBytes | cancel | drop => exact absurd rfl hne
  | sendCommand | sendData => exact absurd rfl hne
  | _ => rfl

/-- Settles O9: the two commands return their bytes, and stand at the two ends of the initialise table. -/
theorem displayPowerCommands : Obligations.DisplayPowerCommands :=
  ⟨returns_commandBytes nofun nofun, returns_commandBytes nofun nofun, fun _ => ⟨rfl, rfl⟩⟩

/-- Settles O10: the level is passed unchanged, by the command and by the table. -/
theorem contrastCommand : Obligations.ContrastCommand :=
  ⟨fun _ => returns_commandBytes nofun nofun, fun _ => rfl⟩

/-- Settles O11: START_LINE's mask leaves the table's operand 0 as it is. -/
theorem geometryCommands : Obligations.GeometryCommands :=
  ⟨fun _ => returns_commandBytes nofun nofun, fun _ => returns_commandBytes nofun nofun,
    fun _ => returns_commandBytes nofun nofun, fun _ => ⟨rfl, rfl, rfl⟩⟩

theorem startLineShort_wf {line : Byte} (h : line.toNat < 64) : (Instr.startLineShort line).wf = true :=
  decide_eq_true (Nat.le_of_lt_succ h)

/-- Settles O12: a line below 64 lies in the command's domain, where its bytes are returned, determine it, and are those of no
command that a walk sends. -/
theorem startLineShortCommand : Obligations.StartLineShortCommand := by
  refine ⟨fun line h => ?returned, fun a b ha hb h => ?distinct, fun line s h => ?refused, fun cfg k line h => ?init,
    fun s p ph payload line h hf => ?flush⟩
  case returned =>
    exact ⟨returns_commandBytes (i := .startLineShort line) nofun (Instr.shortLineFits_of_wf (startLineShort_wf h)),
      startLineShort_range (Nat.le_of_lt_succ h)⟩
  case distinct =>
    have hcanon := canon_eq_of_commandBytes_eq (startLineShort_wf ha) (startLineShort_wf hb) nofun
      (congrArg (fun byte => [byte]) h)
    exact Instr.startLineShort.inj hcanon
  case refused => exact if_neg (Nat.not_lt.mpr h)
  case init => exact initCmd_ne (startLineShort_wf h) rfl cfg k
  case flush =>
    obtain ⟨i, hi, rfl⟩ := flushFrame_sendable hf
    exact hi.commandBytes_ne (startLineShort_wf h) rfl

/-- CLOCK_DIVIDE's masks (R138) keep operands that are nibbles whole. -/
theorem clockDivide_of_lt {freq ratio : Byte} (hf : freq.toNat < 16) (hr : ratio.toNat < 16) :
    Catalog.clockDivide freq ratio = ([0xD5, (freq <<< 4) ||| ratio] : List Byte) := by
  rw [Catalog.clockDivide, and_mask_of_lt 4 rfl hf, and_mask_of_lt 4 rfl hr]

/-- Settles O13: the clock's configuration registers are nibbles. -/
theorem timingCommands : Obligations.TimingCommands :=
  ⟨fun _ _ => returns_commandBytes nofun nofun, fun _ => returns_commandBytes nofun nofun,
    fun _ => returns_commandBytes nofun nofun,
    fun cfg => ⟨clockDivide_of_lt (nibble_setWidth_lt cfg.clkFreq) (nibble_setWidth_lt cfg.clkRatio), rfl, rfl⟩⟩

/-- Settles O14: CHARGE_PUMP_OFF is on R157's list. -/
theorem chargePumpCommands : Obligations.ChargePumpCommands :=
  ⟨returns_commandBytes nofun nofun, returns_commandBytes nofun nofun,
    fun cfg => ⟨rfl, initCmd_ne (j := .chargePumpOff) rfl rfl cfg⟩⟩

/-- Settles O15: the straps choose between two commands, and so between their bytes. -/
theorem orientationCommands : Obligations.OrientationCommands :=
  ⟨returns_commandBytes nofun nofun, returns_commandBytes nofun nofun, returns_commandBytes nofun nofun,
    returns_commandBytes nofun nofun, fun _ => ⟨apply_ite commandBytes .., apply_ite commandBytes ..⟩⟩

/-- Settles O16: ENTIRE_DISPLAY_FORCE and DISPLAY_INVERTED are on R157's list. -/
theorem displayModeCommands : Obligations.DisplayModeCommands :=
  ⟨returns_commandBytes nofun nofun, returns_commandBytes nofun nofun, returns_commandBytes nofun nofun,
    returns_commandBytes nofun nofun, fun cfg => ⟨rfl, rfl, fun k =>
      ⟨initCmd_ne (j := .entireDisplayForce) rfl rfl cfg k, initCmd_ne (j := .displayInverted) rfl rfl cfg k⟩⟩⟩

/-- A page number is a nibble, so that joining it to PAGE_ADDRESS's opcode (R152) adds it. -/
theorem pageAddress_of_page (p : Fin 16) :
    Catalog.pageAddress (BitVec.ofNat 8 p.val) = [0xB0 + BitVec.ofNat 8 p.val] := by
  revert p
  decide

/-- Settles O17: the select frames of FLUSH carry the commands for page `p` and column 0. -/
theorem addressingCommands : Obligations.AddressingCommands := by
  refine ⟨fun _ => returns_commandBytes nofun nofun, fun col => ?low, fun _ => returns_commandBytes nofun nofun,
    fun s p => ⟨?page, rfl, rfl⟩⟩
  case low => exact Catalog.columnLow_eq col ▸ returns_commandBytes (i := .columnLow col) nofun nofun
  case page => rw [flushFrame, pageAddress_of_page]

/-- Settles O18: the opcode is passed on as the configuration gives it. -/
theorem comPinsCommand : Obligations.ComPinsCommand :=
  ⟨fun _ => returns_commandBytes nofun nofun, fun _ => rfl⟩

end Sys2Proof.Machine

namespace Sys2Proof.Machine

/-! The end of a frame (42_transport_framer R171), and what the framer leaves as it was (R182). -/

/-- Settles O27: `emit` overflows, or sends the frame and ends with the transport's answer. -/
theorem emitSendsOneFrame : Obligations.EmitSendsOneFrame := by
  refine fun ctrl payload s => ⟨emit_overflow, fun hfit => ⟨s.sendFrame (ctrl :: payload), emit_fits hfit,
    State.sendFrame_wire _ _, ?staged, ?length, State.sendFrame_observed _ _, ?kept⟩⟩
  case staged => rw [State.sendFrame_stage, State.sendFrame_stageLen, List.take_left]
  case length => rw [State.sendFrame_stageLen, List.length_cons, Nat.add_comm]
  case kept => simp

/-- A frame that failed overflowed and was not sent, or was sent and answered `Err(e)` (R175). -/
theorem wire_of_emit_err {ctrl : Byte} {payload : List Byte} {s t : State} {c : Cause}
    (he : emit ctrl payload s = (t, .err c)) :
    match c with
    | .transportError e => t.wire = s.wire ++ [{ addr := s.addr, bytes := ctrl :: payload, answer := .err e }]
    | .payloadOverflow n => t.wire = s.wire ∧ n = 1 + payload.length ∧ s.params.stageCap < n := by
  rcases emit_cases ctrl payload s with ⟨hover, e⟩ | ⟨-, e⟩
  · cases e.symm.trans he
    exact ⟨rfl, rfl, hover⟩
  · cases ha : s.nextAnswer with
    | ok => rw [e, ha] at he; cases he
    | err error =>
      rw [e, ha] at he
      cases he
      rw [State.sendFrame_wire, ha]

/-- All of the block but `STAGE`, `WIRE` and what was returned is in `t` as in `s`. -/
def State.FramerKeeps (s t : State) : Prop :=
  t.fb = s.fb ∧ t.cfg = s.cfg ∧ t.addr = s.addr ∧ t.busPresent = s.busPresent ∧ t.bstate = s.bstate ∧ t.seq = s.seq
    ∧ t.result = s.result ∧ t.wireBase = s.wireBase ∧ t.params = s.params ∧ t.port = s.port

theorem State.FramerKeeps.refl (s : State) : s.FramerKeeps s := by
  simp [State.FramerKeeps]

theorem State.FramerKeeps.emit {s u : State} (h : s.FramerKeeps u) (ctrl : Byte) (payload : List Byte) :
    s.FramerKeeps (emit ctrl payload u).1 :=
  emit_keeps ctrl payload u h fun _ => by simpa [State.FramerKeeps] using h

theorem State.FramerKeeps.split (ctrl : Byte) (data : List Byte) (s : State) : s.FramerKeeps (split ctrl data s).1 :=
  splitFrom_keeps' (fun _ payload h => h.emit ctrl payload) _ data s (.refl s)

theorem State.FramerKeeps.finishFramer {s : State} {f : State × FrameEnd} (h : s.FramerKeeps f.1) :
    s.FramerKeeps (finishFramer f) := by
  obtain ⟨u, _ | c⟩ := f
  · exact h
  · exact h

@[simp] theorem finishFramer_answers (f : State × FrameEnd) : (finishFramer f).answers = f.1.answers := by
  obtain ⟨u, _ | c⟩ := f <;> rfl

/-! SEND_COMMAND (R172, R179, R180). -/

/-- In an idle session the length of the bytes alone decides what SEND_COMMAND does. -/
theorem exec_sendCommand {s : State} (hq : s.seq = .idle) (hb : s.bstate = .built) (cmd : List Byte) :
    exec (.sendCommand cmd) s
      = if cmd.length = 0 then .refused .emptyCommand
        else if 1 + cmd.length ≤ s.params.tmax then .next (finishFramer (emit s.params.ctrlCmd.byte cmd s))
        else .refused (.commandTooLong cmd.length) :=
  if_pos (State.sessionIdle_iff.mpr ⟨hq, hb⟩)

/-- Settles O29: the length of the bytes is the first thing SEND_COMMAND asks for. -/
theorem sendCommandRefusals : Obligations.SendCommandRefusals := by
  refine fun s cmd hq hb => ⟨fun hnil => ?empty, fun hne hlong => ?tooLong⟩
  case empty => rw [exec_sendCommand hq hb, if_pos (List.length_eq_zero_iff.mpr hnil)]
  case tooLong => rw [exec_sendCommand hq hb, if_neg (mt List.length_eq_zero_iff.mp hne), if_neg (Nat.not_le.mpr hlong)]

/-- Settles O28: SEND_COMMAND is `emit` of its bytes behind `CTRL_CMD`, and hands on the end of that frame. -/
theorem sendCommandSendsOneFrame : Obligations.SendCommandSendsOneFrame := by
  intro s cmd hq hb hne hlen
  refine ⟨finishFramer (emit s.params.ctrlCmd.byte cmd s), ?exec, fun hfit => ?sent, fun hover => ?overflow,
    ((State.FramerKeeps.refl s).emit _ cmd).finishFramer⟩
  case exec => rw [exec_sendCommand hq hb, if_neg (Nat.pos_iff_ne_zero.mp hne), if_pos hlen]
  case sent =>
    rw [finishFramer_wire, finishFramer_ret, emit_fits hfit]
    refine ⟨s.nextAnswer, State.sendFrame_wire _ _, fun b rest h => s.nextAnswer_cons h, fun ha => ?_, fun e ha => ?_⟩
    · rw [ha]; rfl
    · rw [ha]; rfl
  case overflow =>
    rw [finishFramer_wire, finishFramer_ret, emit_overflow hover]
    exact ⟨rfl, rfl⟩

/-! The greedy chunks of SPLIT (R174). -/

/-- Data cut greedily into pieces of `n + 1` bytes, the last one shorter if need be: the payloads of `SPLIT` when
`TMAX = n + 2`. -/
def chunks (n : Nat) : List Byte → List (List Byte)
  | [] => []
  | b :: rest => (b :: rest.take n) :: chunks n (rest.drop n)
termination_by data => data.length
decreasing_by
  rw [List.length_drop, List.length_cons]
  omega

@[simp] theorem chunks_nil (n : Nat) : chunks n [] = [] := by
  rw [chunks]

@[simp] theorem chunks_cons (n : Nat) (b : Byte) (rest : List Byte) :
    chunks n (b :: rest) = (b :: rest.take n) :: chunks n (rest.drop n) := by
  rw [chunks]

theorem chunks_flatten (n : Nat) (data : List Byte) : (chunks n data).flatten = data := by
  induction data using chunks.induct n with
  | case1 => simp
  | case2 b rest ih => simp [ih]

theorem length_of_mem_chunks {n : Nat} {data p : List Byte} (hp : p ∈ chunks n data) : 1 ≤ p.length ∧ p.length ≤ n + 1 := by
  induction data using chunks.induct n with
  | case1 => simp at hp
  | case2 b rest ih =>
    rw [chunks_cons, List.mem_cons] at hp
    rcases hp with rfl | hp
    · rw [List.length_cons, List.length_take]
      omega
    · exact ih hp

theorem length_le_of_mem_chunks {n : Nat} {data p : List Byte} (hp : p ∈ chunks n data) : p.length ≤ data.length := by
  have hsub := List.sublist_flatten_of_mem hp
  rw [chunks_flatten] at hsub
  exact hsub.length_le

/-- R174, R178: `ceil(len / (n + 1))` chunks. -/
theorem chunks_length (n : Nat) (data : List Byte) : (chunks n data).length = (data.length + n) / (n + 1) := by
  induction data using chunks.induct n with
  | case1 => rw [chunks_nil, List.length_nil, List.length_nil, Nat.zero_add, Nat.div_eq_of_lt (Nat.lt_succ_self n)]
  | case2 b rest ih =>
    have hquot : (rest.length + 1 + n) / (n + 1) = rest.length / (n + 1) + 1 := by
      rw [Nat.add_assoc, Nat.add_comm 1 n, Nat.add_div_right _ (Nat.succ_pos n)]
    rw [chunks_cons, List.length_cons, ih, List.length_drop, List.length_cons, hquot]
    rcases Nat.le_total n rest.length with hfull | hlast
    · rw [Nat.sub_add_cancel hfull]
    · rw [Nat.sub_eq_zero_of_le hlast, Nat.zero_add, Nat.div_eq_of_lt (Nat.lt_succ_self n),
        Nat.div_eq_of_lt (Nat.lt_succ_of_le hlast)]

theorem lt_length_of_drop_eq_cons {α : Type} {n : Nat} {l rest : List α} {a : α} (h : l.drop n = a :: rest) :
    n < l.length := by
  refine Nat.lt_of_not_le fun hle => ?_
  rw [List.drop_of_length_le hle] at h
  cases h

/-- Only the last chunk is shorter than the others. -/
theorem length_of_mem_chunks_dropLast {n : Nat} {data p : List Byte} (hp : p ∈ (chunks n data).dropLast) :
    p.length = n + 1 := by
  induction data using chunks.induct n with
  | case1 => simp at hp
  | case2 b rest ih =>
    cases hrest : rest.drop n with
    | nil => simp [hrest] at hp
    | cons d more =>
      have hlong := lt_length_of_drop_eq_cons hrest
      have hmore : chunks n (rest.drop n) ≠ [] := by rw [hrest, chunks_cons]; exact List.cons_ne_nil _ _
      rw [chunks_cons, List.dropLast_cons_of_ne_nil hmore, List.mem_cons] at hp
      rcases hp with rfl | hp
      · rw [List.length_cons, List.length_take_of_le hlong.le]
      · exact ih hp

/-! SPLIT as a run over the payloads of its frames, up to the first that fails (R174, R175). -/

/-- Send one frame for each payload, up to the first that fails. -/
def emitAll (ctrl : Byte) : List (List Byte) → State → State × FrameEnd
  | [], s => (s, .ok)
  | p :: ps, s =>
    match emit ctrl p s with
    | (t, .ok) => emitAll ctrl ps t
    | (t, .err c) => (t, .err c)

theorem emitAll_cons_of_ok {ctrl : Byte} {p : List Byte} {s u : State} (h : emit ctrl p s = (u, .ok))
    (ps : List (List Byte)) : emitAll ctrl (p :: ps) s = emitAll ctrl ps u := by
  rw [emitAll, h]

theorem emitAll_cons_of_err {ctrl : Byte} {p : List Byte} {s u : State} {c : Cause} (h : emit ctrl p s = (u, .err c))
    (ps : List (List Byte)) : emitAll ctrl (p :: ps) s = (u, .err c) := by
  rw [emitAll, h]

theorem splitFrom_eq_emitAll {ctrl : Byte} {n fuel : Nat} {data : List Byte} {s : State}
    (hn : s.params.tmax - 1 = n + 1) (hfuel : data.length ≤ fuel) :
    splitFrom ctrl fuel data s = emitAll ctrl (chunks n data) s := by
  induction fuel generalizing data s with
  | zero => rw [List.length_eq_zero_iff.mp (Nat.le_zero.mp hfuel), chunks_nil]; rfl
  | succ fuel ih =>
    cases data with
    | nil => rw [chunks_nil]; rfl
    | cons b rest =>
      rw [splitFrom, chunks_cons, hn, List.take_succ_cons, List.drop_succ_cons]
      rcases he : emit ctrl (b :: rest.take n) s with ⟨u, _ | c⟩
      · have hu : u.params = s.params := by rw [← emit_params ctrl (b :: rest.take n) s, he]
        have hrest : (rest.drop n).length ≤ fuel := by
          rw [List.length_drop]
          exact (Nat.sub_le _ _).trans (Nat.le_of_succ_le_succ hfuel)
        rw [emitAll_cons_of_ok he]
        exact ih (hu ▸ hn) hrest
      · rw [emitAll_cons_of_err he]

theorem split_eq_emitAll {n : Nat} {s : State} (hn : s.params.tmax - 1 = n + 1) (ctrl : Byte) (data : List Byte) :
    split ctrl data s = emitAll ctrl (chunks n data) s :=
  splitFrom_eq_emitAll hn le_rfl

/-- Frames that all ended `Ok` are in `WIRE`, in order; `ADDR` and the parameters stand as before. -/
theorem emitAll_ok {ctrl : Byte} {ps : List (List Byte)} {s t : State} (h : emitAll ctrl ps s = (t, .ok)) :
    t.wire = s.wire ++ ps.map (fun p => okEntry s.addr (ctrl :: p)) ∧ t.addr = s.addr ∧ t.params = s.params := by
  induction ps generalizing s with
  | nil => cases h; simp
  | cons p ps ih =>
    rcases he : emit ctrl p s with ⟨u, _ | c⟩
    · rw [emitAll_cons_of_ok he] at h
      obtain ⟨rfl, ha⟩ := eq_sendFrame_of_emit_ok he
      obtain ⟨hw, haddr, hpar⟩ := ih h
      simp only [State.sendFrame_wire, State.sendFrame_addr, State.sendFrame_params, ha] at hw haddr hpar
      exact ⟨by rw [hw, List.append_assoc, List.map_cons]; rfl, haddr, hpar⟩
    · rw [emitAll_cons_of_err he] at h
      cases h

/-- A run that failed sent some frames, then met one that failed, and stopped (R175). -/
theorem emitAll_err {ctrl : Byte} {ps : List (List Byte)} {s t : State} {c : Cause} (h : emitAll ctrl ps s = (t, .err c)) :
    ∃ sent failing rest u, ps = sent ++ failing :: rest ∧ emitAll ctrl sent s = (u, .ok)
      ∧ emit ctrl failing u = (t, .err c) := by
  induction ps generalizing s with
  | nil => cases h
  | cons p ps ih =>
    rcases he : emit ctrl p s with ⟨u, _ | c'⟩
    · rw [emitAll_cons_of_ok he] at h
      obtain ⟨sent, failing, rest, v, rfl, hsent, hfail⟩ := ih h
      exact ⟨p :: sent, failing, rest, v, rfl, by rw [emitAll_cons_of_ok he, hsent], hfail⟩
    · rw [emitAll_cons_of_err he] at h
      cases h
      exact ⟨[], p, ps, s, rfl, rfl, he⟩

/-- Enough answers `Ok`, and room for every frame: the run ends `Ok`. -/
theorem emitAll_ends_ok {ctrl : Byte} {ps : List (List Byte)} {s : State} {rest : List Answer}
    (ha : s.answers = List.replicate ps.length .ok ++ rest) (hfit : ∀ p ∈ ps, 1 + p.length ≤ s.params.stageCap) :
    (emitAll ctrl ps s).2 = .ok := by
  induction ps generalizing s with
  | nil => rfl
  | cons p ps ih =>
    have hcons : s.answers = .ok :: (List.replicate ps.length .ok ++ rest) := ha
    have he : emit ctrl p s = (s.sendFrame (ctrl :: p), .ok) := by
      rw [emit_fits (hfit p List.mem_cons_self), s.nextAnswer_cons hcons]
      rfl
    rw [emitAll_cons_of_ok he]
    refine ih ?_ fun q hq => ?_
    · rw [State.sendFrame_answers, s.takeAnswer_cons hcons]
    · rw [State.sendFrame_params]
      exact hfit q (List.mem_cons_of_mem p hq)

/-! The answers that frames record (00_scope R12). -/

/-- From `s` to `t` the entries `new` were sent; they record the queued answers as far as those reach, which are used up. -/
def State.SentAnswered (s : State) (new : List WireEntry) (t : State) : Prop :=
  t.wire = s.wire ++ new ∧ (new.map WireEntry.answer).take s.answers.length = s.answers.take new.length
    ∧ t.answers = s.answers.drop new.length

theorem State.SentAnswered.refl (s : State) : s.SentAnswered [] s := by
  simp [State.SentAnswered]

theorem State.takeAnswer_answers (s : State) : s.takeAnswer.answers = s.answers.tail := by
  cases ha : s.answers with
  | nil => simp [State.takeAnswer, ha]
  | cons a rest => exact s.takeAnswer_cons ha

theorem State.SentAnswered.sendFrame {s u : State} {new : List WireEntry} (h : s.SentAnswered new u) (frame : List Byte) :
    s.SentAnswered (new ++ [{ addr := u.addr, bytes := frame, answer := u.nextAnswer }]) (u.sendFrame frame) := by
  obtain ⟨hw, hrec, hleft⟩ := h
  refine ⟨by rw [State.sendFrame_wire, hw, List.append_assoc], ?recorded, ?left⟩
  case left =>
    rw [State.sendFrame_answers, State.takeAnswer_answers, hleft, List.tail_drop, List.length_append, List.length_singleton]
  case recorded =>
    rw [List.map_append, List.length_append]
    cases hu : u.answers with
    | nil =>
      have hused : s.answers.length ≤ new.length := List.drop_eq_nil_iff.mp (hleft.symm.trans hu)
      rw [List.take_append_of_le_length (by rwa [List.length_map]), hrec, List.take_of_length_le hused,
        List.take_of_length_le (Nat.le_add_right_of_le hused)]
    | cons a rest =>
      have hqueue : s.answers.drop new.length = a :: rest := hleft.symm.trans hu
      have hunused : new.length < s.answers.length := lt_length_of_drop_eq_cons hqueue
      rw [List.take_of_length_le (by rw [List.length_map]; exact hunused.le)] at hrec
      rw [hrec, u.nextAnswer_cons hu, List.take_add, hqueue, List.take_of_length_le]
      · rfl
      · rw [List.length_append, List.length_take_of_le hunused.le]
        exact hunused

theorem split_answered (ctrl : Byte) (data : List Byte) (s : State) :
    ∃ new, s.SentAnswered new (split ctrl data s).1 :=
  splitFrom_keeps' (P := fun u => ∃ new, s.SentAnswered new u)
    (fun u payload ⟨new, h⟩ =>
      emit_keeps (P := fun v => ∃ new, s.SentAnswered new v) ctrl payload u ⟨new, h⟩ fun _ => ⟨_, h.sendFrame _⟩)
    _ data s ⟨[], .refl s⟩

/-! SEND_DATA (R173). -/

theorem exec_sendData {s : State} (hq : s.seq = .idle) (hb : s.bstate = .built) (data : List Byte) :
    exec (.sendData data) s = .next (finishFramer (split ctrlData data s)) :=
  if_pos (State.sessionIdle_iff.mpr ⟨hq, hb⟩)

/-- The legal values of `TMAX` (R7) leave room for payload bytes. -/
theorem tmax_eq_of_legal {p : Params} (h : p.legal) : ∃ n, p.tmax = n + 2 :=
  ⟨p.tmax - 2, by have := h.1; omega⟩

/-- Settles O31: the chunks before the failing one are the frames sent, and the data is all the chunks joined. -/
theorem sendDataStopsAtFirstFailure : Obligations.SendDataStopsAtFirstFailure := by
  intro s t data c hl hexec hret hq hb
  obtain ⟨n, hn⟩ := tmax_eq_of_legal hl
  rw [exec_sendData hq hb] at hexec
  cases hexec
  rw [finishFramer_ret, Ret.framer.injEq] at hret
  rw [finishFramer_wire]
  have hrun : split ctrlData data s = ((split ctrlData data s).1, .err c) := Prod.ext rfl hret
  obtain ⟨sent, failing, rest, u, hps, hsent, hfail⟩ :=
    emitAll_err ((split_eq_emitAll (Nat.sub_eq_of_eq_add hn) _ data).symm.trans hrun)
  obtain ⟨hw, haddr, hpar⟩ := emitAll_ok hsent
  have hmem : failing ∈ chunks n data := by rw [hps]; exact List.mem_append_right _ List.mem_cons_self
  refine ⟨sent, failing, rest.flatten, ?data, List.length_pos_iff.mp (length_of_mem_chunks hmem).1, ?wire⟩
  case data => rw [← chunks_flatten n data, hps, List.flatten_append, List.flatten_cons, List.append_assoc]
  case wire =>
    have hf := wire_of_emit_err hfail
    rw [hw, haddr, hpar] at hf
    cases c with
    | transportError e => exact hf
    | payloadOverflow m => exact hf

/-- Settles O30: SEND_DATA sends the chunks of its data, and with enough answers `Ok` and room for the longest it sends them all. -/
theorem sendDataSendsTheData : Obligations.SendDataSendsTheData := by
  intro s data hq hb hl
  obtain ⟨n, hn⟩ := tmax_eq_of_legal hl
  have hsize : s.params.tmax - 1 = n + 1 := Nat.sub_eq_of_eq_add hn
  have hsplit := split_eq_emitAll hsize ctrlData data
  have hcount : (chunks n data).length = (data.length + (s.params.tmax - 1) - 1) / (s.params.tmax - 1) := by
    rw [chunks_length, hsize]; rfl
  obtain ⟨new, hwire, hrec, hleft⟩ := split_answered ctrlData data s
  have hnew : (split ctrlData data s).2 = .ok → new = (chunks n data).map (fun p => okEntry s.addr (0x40 :: p)) := by
    intro hok
    have hsent := (emitAll_ok (hsplit.symm.trans (Prod.ext rfl hok))).1
    exact List.append_cancel_left (hwire.symm.trans hsent)
  refine ⟨finishFramer (split ctrlData data s), chunks n data, new, exec_sendData hq hb data, ?wire, fun hret => ?sent, hrec,
    ?left, fun rest hans hfit => ?enough, (State.FramerKeeps.split _ data s).finishFramer⟩
  case wire => rw [finishFramer_wire, hwire]
  case left => rw [finishFramer_answers, hleft]
  case sent =>
    rw [finishFramer_ret, Ret.framer.injEq] at hret
    refine ⟨hnew hret, chunks_flatten n data, fun p hp => ?_, hcount, fun p hp => ?_⟩
    · have hlen := length_of_mem_chunks hp
      omega
    · rw [length_of_mem_chunks_dropLast hp, hn]
  case enough =>
    rw [← hcount] at hans
    have hok : (split ctrlData data s).2 = .ok := by
      rw [hsplit]
      refine emitAll_ends_ok hans fun p hp => ?_
      have hchunk := length_of_mem_chunks hp
      have hdata := length_le_of_mem_chunks hp
      omega
    rw [finishFramer_ret, finishFramer_answers, hok, hleft, hnew hok, List.length_map, hans]
    exact ⟨rfl, List.drop_left' List.length_replicate⟩

end Sys2Proof.Machine

namespace Sys2Proof.Machine

/-! The initialise table (43_initialize R191). -/

/-- Settles O33: only the clock's nibbles and the two remap straps ask for more than the catalog's definitions. -/
theorem initFrameTable : Obligations.InitFrameTable := by
  intro cfg
  have hclock : initCmd cfg 1 = ([0xD5, (cfg.clkFreq.setWidth 8 <<< 4) ||| cfg.clkRatio.setWidth 8] : List Byte) :=
    clockDivide_of_lt (nibble_setWidth_lt cfg.clkFreq) (nibble_setWidth_lt cfg.clkRatio)
  have hseg : initCmd cfg 6 = [if cfg.segRemap = 0 then 0xA0 else 0xA1] := by
    rw [initCmd, initInstr, segmentRemap]
    split_ifs <;> rfl
  have hcom : initCmd cfg 7 = [if cfg.comRemap = 0 then 0xC0 else 0xC8] := by
    rw [initCmd, initInstr, comScan]
    split_ifs <;> rfl
  rw [← hclock, ← hseg, ← hcom]
  rfl

/-! One step of the initialise walk (43_initialize R193, R195). -/

/-- INITIALIZE in an idle session (R193). -/
theorem exec_initializeOp {s : State} (hq : s.seq = .idle) (hb : s.bstate = .built) :
    exec .initializeOp s = .next (s.accept (.init .host 0)) :=
  if_pos (State.sessionIdle_iff.mpr ⟨hq, hb⟩)

/-- Frame `k` of the walk, emitted. -/
def State.emitInit (s : State) (k : Fin 15) : State × FrameEnd := emit s.params.ctrlCmd.byte (initCmd s.cfg k) s

/-- The state after the step at `INIT(ctx, k)`. -/
def State.initStep (s : State) (ctx : Ctx) (k : Fin 15) : State := afterInit ctx k (s.emitInit k)

theorem seqStep_init {s : State} {ctx : Ctx} {k : Fin 15} (hq : s.seq = .init ctx k) :
    seqStep s = .next (s.initStep ctx k) := by
  rw [seqStep, hq]
  rfl

@[simp] theorem emit_bstate (ctrl : Byte) (payload : List Byte) (s : State) : (emit ctrl payload s).1.bstate = s.bstate :=
  emit_keeps (P := fun u => u.bstate = s.bstate) ctrl payload s rfl (by simp)

section EmitInit

variable {s : State} {k : Fin 15}

theorem State.emitInit_overflow (hover : s.params.stageCap < 1 + (initCmd s.cfg k).length) :
    s.emitInit k = (s, .err (.payloadOverflow (1 + (initCmd s.cfg k).length))) :=
  emit_overflow hover

theorem State.emitInit_ok (hfit : 1 + (initCmd s.cfg k).length ≤ s.params.stageCap) (ha : s.nextAnswer = .ok) :
    s.emitInit k = (s.sendFrame (s.params.ctrlCmd.byte :: initCmd s.cfg k), .ok) := by
  rw [emitInit, emit_fits hfit, ha, answerEnd]

theorem State.emitInit_err (hfit : 1 + (initCmd s.cfg k).length ≤ s.params.stageCap) {e : BusError}
    (ha : s.nextAnswer = .err e) :
    s.emitInit k = (s.sendFrame (s.params.ctrlCmd.byte :: initCmd s.cfg k), .err (.transportError e)) := by
  rw [emitInit, emit_fits hfit, ha, answerEnd]

end EmitInit

/-- What a walk leaves as it was, from `s` to `t`. -/
structure State.WalkKeeps (s t : State) : Prop where
  fb : t.fb = s.fb
  addr : t.addr = s.addr
  busPresent : t.busPresent = s.busPresent
  cfg : t.cfg = s.cfg
  params : t.params = s.params
  ret : t.ret = s.ret
  port : t.port = s.port

theorem State.WalkKeeps.refl (s : State) : s.WalkKeeps s := ⟨rfl, rfl, rfl, rfl, rfl, rfl, rfl⟩

theorem State.WalkKeeps.trans {s t u : State} (h : s.WalkKeeps t) (h' : t.WalkKeeps u) : s.WalkKeeps u :=
  ⟨h'.fb.trans h.fb, h'.addr.trans h.addr, h'.busPresent.trans h.busPresent, h'.cfg.trans h.cfg,
    h'.params.trans h.params, h'.ret.trans h.ret, h'.port.trans h.port⟩

/-- `BSTATE` where a walk ends: only a walk that BUILD started writes it (R195, R256). -/
def Ctx.bstateAtEnd (ctx : Ctx) (old new : BState) : BState :=
  match ctx with
  | .host => old
  | .build => new

theorem State.completeInit_bstate (s : State) (ctx : Ctx) :
    (s.completeInit ctx).bstate = ctx.bstateAtEnd s.bstate .built := by
  cases ctx <;> rfl

theorem State.raiseError_bstate_of_init {s : State} {ctx : Ctx} {k : Fin 15} (hq : s.seq = .init ctx k) (e : Error) :
    (s.raiseError e).bstate = ctx.bstateAtEnd s.bstate (.failed .initializationFailed) := by
  rw [State.raiseError_bstate, hq]
  cases ctx <;> rfl

namespace State

variable {s u : State} {ctx : Ctx} {k : Fin 15}

theorem initStep_keeps (s : State) (ctx : Ctx) (k : Fin 15) : s.WalkKeeps (s.initStep ctx k) := by
  obtain ⟨q, r, b, c, ht⟩ := afterInit_progressOnly ctx k (s.emitInit k)
  rw [initStep, ht]
  exact ⟨emit_fb .., emit_addr .., emit_busPresent .., emit_cfg .., emit_params .., emit_ret .., emit_port ..⟩

theorem initStep_wire (s : State) (ctx : Ctx) (k : Fin 15) : (s.initStep ctx k).wire = (s.emitInit k).1.wire := by
  obtain ⟨q, r, b, c, ht⟩ := afterInit_progressOnly ctx k (s.emitInit k)
  rw [initStep, ht]

theorem initStep_answers (s : State) (ctx : Ctx) (k : Fin 15) : (s.initStep ctx k).answers = (s.emitInit k).1.answers := by
  obtain ⟨q, r, b, c, ht⟩ := afterInit_progressOnly ctx k (s.emitInit k)
  rw [initStep, ht]

/-- A frame that failed ends the walk (R193, R256). -/
theorem initStep_fails (hq : s.seq = .init ctx k) {c : Cause} (he : s.emitInit k = (u, .err c)) :
    (s.initStep ctx k).seq = .idle ∧ (s.initStep ctx k).result = .err (.initializationFailed c)
      ∧ (s.initStep ctx k).bstate = ctx.bstateAtEnd s.bstate (.failed .initializationFailed) := by
  have hseq : (s.emitInit k).1.seq = s.seq := emit_seq ..
  have hb : (s.emitInit k).1.bstate = s.bstate := emit_bstate ..
  rw [he] at hseq hb
  rw [initStep, he, afterInit]
  exact ⟨rfl, rfl, hb ▸ raiseError_bstate_of_init (hseq.trans hq) _⟩

/-- A frame answered `Ok` before the last one moves the walk to the next frame (R193). -/
theorem initStep_goesOn (ctx : Ctx) (hk : k.val + 1 < 15) (he : s.emitInit k = (u, .ok)) :
    (s.initStep ctx k).seq = .init ctx ⟨k.val + 1, hk⟩ ∧ (s.initStep ctx k).result = s.result
      ∧ (s.initStep ctx k).bstate = s.bstate := by
  have hres : (s.emitInit k).1.result = s.result := emit_result ..
  have hb : (s.emitInit k).1.bstate = s.bstate := emit_bstate ..
  rw [he] at hres hb
  rw [initStep, he, afterInit, dif_pos hk]
  exact ⟨rfl, hres, hb⟩

/-- The last frame answered `Ok` completes the walk (R195). -/
theorem initStep_completes (ctx : Ctx) (hk : k.val = 14) (he : s.emitInit k = (u, .ok)) :
    (s.initStep ctx k).seq = .idle ∧ (s.initStep ctx k).result = .ok
      ∧ (s.initStep ctx k).bstate = ctx.bstateAtEnd s.bstate .built := by
  have hb : (s.emitInit k).1.bstate = s.bstate := emit_bstate ..
  rw [he] at hb
  rw [initStep, he, afterInit, dif_neg (by omega)]
  exact ⟨rfl, rfl, hb ▸ completeInit_bstate u ctx⟩

end State

/-- Settles O34: how the frame that the step emits ended decides how the walk goes on. -/
theorem initializeAndItsWalkSteps : Obligations.InitializeAndItsWalkSteps := by
  refine ⟨fun s hq hb => exec_initializeOp hq hb, fun s ctx k hq => ?_⟩
  have hkeeps := s.initStep_keeps ctx k
  refine ⟨_, seqStep_init hq, hkeeps.fb, hkeeps.addr, hkeeps.busPresent, hkeeps.cfg, hkeeps.params, hkeeps.ret,
    fun hover => ⟨?unsent, State.initStep_fails hq (State.emitInit_overflow hover)⟩,
    fun hfit => ⟨?sent, fun e ha => State.initStep_fails hq (State.emitInit_err hfit ha),
      fun ha => ⟨fun hk => State.initStep_goesOn ctx hk (State.emitInit_ok hfit ha),
        fun hk => State.initStep_completes ctx hk (State.emitInit_ok hfit ha)⟩⟩⟩
  case unsent => rw [State.initStep_wire, State.emitInit_overflow hover]
  case sent => rw [State.initStep_wire, State.emitInit, emit_fits hfit, State.sendFrame_wire]

/-! The walk as a run (R194, R199). -/

/-- One step after a run is one more step of the run. -/
theorem runSteps_succ {n : Nat} {s t : State} (h : runSteps n s = .next t) : runSteps (n + 1) s = step t := by
  induction n generalizing s with
  | zero =>
    cases h
    rw [runSteps]
    cases step t <;> rfl
  | succ n ih =>
    rw [runSteps] at h ⊢
    cases hstep : step s with
    | next u => rw [hstep] at h; exact ih h
    | fault | refused => rw [hstep] at h; cases h

theorem initEntries_succ (s : State) (k : Fin 15) : initEntries s (k.val + 1) = initEntries s k.val ++ [initEntry s k] := by
  simp [initEntries, List.take_add_one]

/-- The walk that started in `s` is at frame `k` in `t`: the frames before it were sent and answered `Ok`. -/
structure State.WalkedTo (s : State) (ctx : Ctx) (k : Fin 15) (t : State) : Prop where
  keeps : s.WalkKeeps t
  seq : t.seq = .init ctx k
  bstate : t.bstate = s.bstate
  wire : t.wire = s.wire ++ initEntries s k.val

namespace State.WalkedTo

variable {s t u : State} {ctx : Ctx} {k : Fin 15}

theorem start (hq : s.seq = .init ctx 0) : s.WalkedTo ctx 0 s :=
  ⟨.refl s, hq, rfl, (List.append_nil _).symm⟩

/-- With nothing presented, the run goes on with the walk's step. -/
theorem runSteps_succ (h : s.WalkedTo ctx k t) (hp : s.port = []) {n : Nat} (hrun : runSteps n s = .next t) :
    runSteps (n + 1) s = .next (t.initStep ctx k) := by
  rw [Machine.runSteps_succ hrun, stepOfTheSequencer.1 t (h.keeps.port.trans hp) (State.busy_of_init h.seq),
    seqStep_init h.seq]

theorem fits (h : s.WalkedTo ctx k t) (hfit : 1 + (initCmd s.cfg k).length ≤ s.params.stageCap) :
    1 + (initCmd t.cfg k).length ≤ t.params.stageCap := by
  rwa [h.keeps.cfg, h.keeps.params]

theorem emitInit_overflow (h : s.WalkedTo ctx k t) (hover : s.params.stageCap < 1 + (initCmd s.cfg k).length) :
    t.emitInit k = (t, .err (.payloadOverflow (1 + (initCmd s.cfg k).length))) := by
  rw [← h.keeps.cfg, ← h.keeps.params] at hover
  rw [State.emitInit_overflow hover, h.keeps.cfg]

/-- `WIRE` with frame `k` sent. -/
theorem sendFrame_wire (h : s.WalkedTo ctx k t) :
    (t.sendFrame (t.params.ctrlCmd.byte :: initCmd t.cfg k)).wire
      = s.wire ++ initEntries s k.val
        ++ [{ addr := s.addr, bytes := s.params.ctrlCmd.byte :: initCmd s.cfg k, answer := t.nextAnswer }] := by
  rw [State.sendFrame_wire, h.wire, h.keeps.addr, h.keeps.params, h.keeps.cfg]

theorem initStep_wire_ok (h : s.WalkedTo ctx k t) (hfit : 1 + (initCmd s.cfg k).length ≤ s.params.stageCap)
    (ha : t.nextAnswer = .ok) : (t.initStep ctx k).wire = s.wire ++ initEntries s (k.val + 1) := by
  rw [initStep_wire, emitInit_ok (h.fits hfit) ha, h.sendFrame_wire, ha, List.append_assoc, initEntries_succ]
  rfl

theorem initStep_answers_ok (h : s.WalkedTo ctx k t) (hfit : 1 + (initCmd s.cfg k).length ≤ s.params.stageCap)
    {rest : List Answer} (ha : t.answers = .ok :: rest) : (t.initStep ctx k).answers = rest := by
  rw [initStep_answers, emitInit_ok (h.fits hfit) (t.nextAnswer_cons ha), State.sendFrame_answers, t.takeAnswer_cons ha]

theorem next (h : s.WalkedTo ctx k t) (hk : k.val + 1 < 15) (hfit : 1 + (initCmd s.cfg k).length ≤ s.params.stageCap)
    (ha : t.nextAnswer = .ok) : s.WalkedTo ctx ⟨k.val + 1, hk⟩ (t.initStep ctx k) := by
  obtain ⟨hseq, -, hb⟩ := initStep_goesOn ctx hk (emitInit_ok (h.fits hfit) ha)
  exact ⟨h.keeps.trans (t.initStep_keeps ctx k), hseq, hb.trans h.bstate, h.initStep_wire_ok hfit ha⟩

/-- Frame `k` fails: the step that ends the walk (R194). -/
theorem runSteps_fails (h : s.WalkedTo ctx k t) (hp : s.port = []) (hrun : runSteps k.val s = .next t) {c : Cause}
    (he : t.emitInit k = (u, .err c)) :
    ∃ v, runSteps (k.val + 1) s = .next v ∧ v.seq = .idle ∧ v.result = .err (.initializationFailed c) ∧ v.wire = u.wire
      ∧ v.fb = s.fb ∧ v.addr = s.addr ∧ v.busPresent = s.busPresent ∧ v.cfg = s.cfg
      ∧ v.bstate = ctx.bstateAtEnd s.bstate (.failed .initializationFailed) := by
  obtain ⟨hseq, hres, hb⟩ := initStep_fails h.seq he
  have hkeeps := h.keeps.trans (t.initStep_keeps ctx k)
  exact ⟨_, h.runSteps_succ hp hrun, hseq, hres, by rw [initStep_wire, he], hkeeps.fb, hkeeps.addr, hkeeps.busPresent,
    hkeeps.cfg, h.bstate ▸ hb⟩

end State.WalkedTo

/-- With frames 0 to `k - 1` fitting and answered `Ok`, the walk comes to frame `k` in `k` steps. -/
theorem runSteps_walkedTo {s : State} {ctx : Ctx} (hq : s.seq = .init ctx 0) (hp : s.port = []) (k : Fin 15)
    {rest : List Answer} (hfit : ∀ j < k, 1 + (initCmd s.cfg j).length ≤ s.params.stageCap)
    (ha : s.answers = List.replicate k.val .ok ++ rest) :
    ∃ t, runSteps k.val s = .next t ∧ s.WalkedTo ctx k t ∧ t.answers = rest := by
  obtain ⟨k, hk⟩ := k
  induction k generalizing rest with
  | zero => exact ⟨s, rfl, .start hq, ha⟩
  | succ k ih =>
    have hlast : (⟨k, Nat.lt_of_succ_lt hk⟩ : Fin 15) < ⟨k + 1, hk⟩ := Nat.lt_succ_self k
    rw [List.replicate_succ', List.append_assoc, List.singleton_append] at ha
    obtain ⟨t, hrun, ht, hans⟩ := ih (Nat.lt_of_succ_lt hk) (fun j hj => hfit j (hj.trans hlast)) ha
    exact ⟨_, ht.runSteps_succ hp hrun, ht.next hk (hfit _ hlast) (t.nextAnswer_cons hans),
      ht.initStep_answers_ok (hfit _ hlast) hans⟩

/-- Settles O35: the walk comes to frame 14, whose step completes it. -/
theorem initWalkSendsFifteenFrames : Obligations.InitWalkSendsFifteenFrames := by
  intro s ctx rest hq hp hcap ha
  have hfit (j : Fin 15) : 1 + (initCmd s.cfg j).length ≤ s.params.stageCap := by
    have hlen := (initCmd_length s.cfg j).2
    omega
  obtain ⟨t, hrun, ht, hans⟩ := runSteps_walkedTo (rest := .ok :: rest) hq hp 14 (fun j _ => hfit j) ha
  have hok := t.nextAnswer_cons hans
  obtain ⟨hseq, hres, hb⟩ := State.initStep_completes (k := 14) ctx rfl (State.emitInit_ok (ht.fits (hfit 14)) hok)
  have hkeeps := ht.keeps.trans (t.initStep_keeps ctx 14)
  exact ⟨_, ht.runSteps_succ hp hrun, hseq, hres, ht.initStep_wire_ok (hfit 14) hok, ht.initStep_answers_ok (hfit 14) hans,
    hkeeps.fb, hkeeps.addr, hkeeps.busPresent, hkeeps.cfg, ht.bstate ▸ hb⟩

/-- Settles O36: the walk comes to frame `k`, whose failure ends it. -/
theorem initWalkStopsAtFirstFailure : Obligations.InitWalkStopsAtFirstFailure := by
  refine fun s ctx k rest hq hp hbefore => ⟨fun e hfit ha => ?answered, fun hover ha => ?overflow⟩
  case answered =>
    obtain ⟨t, hrun, ht, hans⟩ := runSteps_walkedTo hq hp k hbefore ha
    have herr := t.nextAnswer_cons hans
    obtain ⟨v, hv, hseq, hres, hwire, hkept⟩ := ht.runSteps_fails hp hrun (State.emitInit_err (ht.fits hfit) herr)
    exact ⟨v, hv, hseq, hres, by rw [hwire, ht.sendFrame_wire, herr], hkept⟩
  case overflow =>
    obtain ⟨t, hrun, ht, -⟩ := runSteps_walkedTo hq hp k hbefore ha
    obtain ⟨v, hv, hseq, hres, hwire, hkept⟩ := ht.runSteps_fails hp hrun (ht.emitInit_overflow hover)
    exact ⟨v, hv, hseq, hres, hwire.trans ht.wire, hkept⟩

end Sys2Proof.Machine

namespace Sys2Proof.Machine

/-! One step of FLUSH (44_flush R212). -/

/-- FLUSH in an idle session (R212). -/
theorem exec_flush {s : State} (hq : s.seq = .idle) (hb : s.bstate = .built) :
    exec .flush s = .next (s.accept (.flush 0 .page)) :=
  if_pos (State.sessionIdle_iff.mpr ⟨hq, hb⟩)

/-- The control byte of the frame at phase `ph`. -/
def State.flushCtrl (s : State) : Phase → Byte
  | .page => s.params.ctrlCmd.byte
  | .colLo => s.params.ctrlCmd.byte
  | .colHi => s.params.ctrlCmd.byte
  | .data _ => ctrlData

/-- The payload of the frame at `FLUSH(p, ph, o)`. -/
def State.flushPayload (s : State) (p : Fin 16) : Phase → List Byte
  | .page => Catalog.pageAddress (BitVec.ofNat 8 p.val)
  | .colLo => Catalog.columnLow 0
  | .colHi => Catalog.columnHigh 0
  | .data o => fbBytes s.fb (128 * p.val + o.val) (min (s.params.tmax - 1) (128 - o.val))

theorem flushFrame_eq (s : State) (p : Fin 16) (ph : Phase) :
    flushFrame s p ph = some (s.flushCtrl ph, s.flushPayload p ph) := by
  cases ph with
  | data o => exact flushFrame_data s p o
  | page | colLo | colHi => rfl

/-- The frame at `FLUSH(p, ph, o)`, emitted. -/
def State.emitFlush (s : State) (p : Fin 16) (ph : Phase) : State × FrameEnd :=
  emit (s.flushCtrl ph) (s.flushPayload p ph) s

/-- The state after the step at `FLUSH(p, ph, o)`. -/
def State.flushStep (s : State) (p : Fin 16) (ph : Phase) : State :=
  afterFlush p ph (s.flushPayload p ph).length (s.emitFlush p ph)

theorem seqStep_flush {s : State} {p : Fin 16} {ph : Phase} (hq : s.seq = .flush p ph) :
    seqStep s = .next (s.flushStep p ph) := by
  simp only [seqStep, hq, flushFrame_eq]
  rfl

/-- The position after a frame of `n` payload bytes at `FLUSH(p, ph, o)`, `IDLE` after the last one (R212). -/
def flushNext (p : Fin 16) (n : Nat) : Phase → Seq
  | .page => .flush p .colLo
  | .colLo => .flush p .colHi
  | .colHi => .flush p (.data 0)
  | .data o =>
    if h : o.val + n < 128 then .flush p (.data ⟨o.val + n, h⟩)
    else if h : p.val + 1 < 16 then .flush ⟨p.val + 1, h⟩ .page
    else .idle

theorem afterFlush_ok (p : Fin 16) (ph : Phase) (n : Nat) (u : State) :
    afterFlush p ph n (u, .ok)
      = if flushNext p n ph = .idle then u.completeFlush else { u with seq := flushNext p n ph } := by
  cases ph with
  | page | colLo | colHi => rfl
  | data o =>
    simp only [afterFlush, afterPage, flushNext]
    by_cases hlt : o.val + n < 128
    · simp [hlt]
    · by_cases hp : p.val + 1 < 16
      · simp [hlt, hp]
      · simp [hlt, hp]

/-- A frame emitted and the sequencer's progress after it leave what a walk leaves; `WIRE` and the answers are as the frame
left them. -/
theorem State.ProgressOnly.of_emit {ctrl : Byte} {payload : List Byte} {s t : State}
    (h : (emit ctrl payload s).1.ProgressOnly t) :
    s.WalkKeeps t ∧ t.wire = (emit ctrl payload s).1.wire ∧ t.answers = (emit ctrl payload s).1.answers := by
  obtain ⟨q, r, b, c, rfl⟩ := h
  exact ⟨⟨emit_fb .., emit_addr .., emit_busPresent .., emit_cfg .., emit_params .., emit_ret .., emit_port ..⟩, rfl, rfl⟩

namespace State

variable {s u : State} {p : Fin 16} {ph : Phase}

theorem flushStep_progressOnly (s : State) (p : Fin 16) (ph : Phase) :
    (emit (s.flushCtrl ph) (s.flushPayload p ph) s).1.ProgressOnly (s.flushStep p ph) :=
  afterFlush_progressOnly ..

theorem flushStep_keeps (s : State) (p : Fin 16) (ph : Phase) : s.WalkKeeps (s.flushStep p ph) :=
  (s.flushStep_progressOnly p ph).of_emit.1

theorem flushStep_wire (s : State) (p : Fin 16) (ph : Phase) : (s.flushStep p ph).wire = (s.emitFlush p ph).1.wire :=
  (s.flushStep_progressOnly p ph).of_emit.2.1

theorem flushStep_answers (s : State) (p : Fin 16) (ph : Phase) :
    (s.flushStep p ph).answers = (s.emitFlush p ph).1.answers :=
  (s.flushStep_progressOnly p ph).of_emit.2.2

theorem emitFlush_overflow (hover : s.params.stageCap < 1 + (s.flushPayload p ph).length) :
    s.emitFlush p ph = (s, .err (.payloadOverflow (1 + (s.flushPayload p ph).length))) :=
  emit_overflow hover

/-- A frame that fits is sent and ends with the transport's answer. -/
theorem emitFlush_answered (hfit : 1 + (s.flushPayload p ph).length ≤ s.params.stageCap) {a : Answer}
    (ha : s.nextAnswer = a) :
    s.emitFlush p ph = (s.sendFrame (s.flushCtrl ph :: s.flushPayload p ph), answerEnd a) := by
  rw [emitFlush, emit_fits hfit, ha]

/-- A frame that failed ends FLUSH with its plain error (R212, R215). -/
theorem flushStep_fails {c : Cause} (he : s.emitFlush p ph = (u, .err c)) :
    (s.flushStep p ph).seq = .idle ∧ (s.flushStep p ph).result = .err c.toError := by
  rw [flushStep, he, afterFlush]
  exact ⟨rfl, rfl⟩

/-- A frame answered `Ok` moves FLUSH on, and the last one completes it (R212). -/
theorem flushStep_ok (he : s.emitFlush p ph = (u, .ok)) :
    (s.flushStep p ph).seq = flushNext p (s.flushPayload p ph).length ph
      ∧ (s.flushStep p ph).result = if flushNext p (s.flushPayload p ph).length ph = .idle then .ok else s.result := by
  have hres : (s.emitFlush p ph).1.result = s.result := emit_result ..
  rw [he] at hres
  rw [flushStep, he, afterFlush_ok]
  split_ifs with hend
  · exact ⟨hend.symm, rfl⟩
  · exact ⟨rfl, hres⟩

/-- FLUSH does not write `BSTATE`, however its step ends: its position is none of BUILD's walk (R256). -/
theorem flushStep_bstate (hq : s.seq = .flush p ph) : (s.flushStep p ph).bstate = s.bstate := by
  have hb : (s.emitFlush p ph).1.bstate = s.bstate := emit_bstate ..
  have hseq : (s.emitFlush p ph).1.seq = s.seq := emit_seq ..
  rw [flushStep]
  rcases he : s.emitFlush p ph with ⟨u, _ | c⟩
  · rw [he] at hb
    rw [afterFlush_ok]
    split_ifs
    · exact hb
    · exact hb
  · rw [he, hq] at hseq
    rw [he] at hb
    rw [afterFlush, raiseError_bstate, hseq]
    exact hb

end State

/-- Settles O37: how the frame that the step emits ended decides how FLUSH goes on. -/
theorem flushAndItsWalkSteps : Obligations.FlushAndItsWalkSteps := by
  refine ⟨fun s hq hb => exec_flush hq hb, fun s p ph hq => ?_⟩
  have hkeeps := s.flushStep_keeps p ph
  refine ⟨s.flushStep p ph, s.flushCtrl ph, s.flushPayload p ph, seqStep_flush hq, ?frame, hkeeps.fb,
    State.flushStep_bstate hq, hkeeps.addr, hkeeps.busPresent, hkeeps.cfg, hkeeps.params, hkeeps.ret,
    fun hover => ⟨?unsent, State.flushStep_fails (State.emitFlush_overflow hover)⟩,
    fun hfit => ⟨?sent, fun e ha => State.flushStep_fails (State.emitFlush_answered hfit ha), fun ha => ?next⟩⟩
  case frame =>
    cases ph with
    | page | colLo | colHi | data => exact ⟨rfl, rfl⟩
  case unsent => rw [State.flushStep_wire, State.emitFlush_overflow hover]
  case sent => rw [State.flushStep_wire, State.emitFlush_answered hfit rfl, State.sendFrame_wire]
  case next =>
    have hnext := State.flushStep_ok (State.emitFlush_answered hfit ha)
    cases ph with
    | page | colLo | colHi => exact hnext
    | data o =>
      rw [State.flushPayload, fbBytes_length, flushNext] at hnext
      refine ⟨fun hlt => ?_, fun hfull hp => ?_, fun hfull hp => ?_⟩
      · rwa [dif_pos hlt] at hnext
      · rwa [dif_neg (by omega), dif_pos hp] at hnext
      · rwa [dif_neg (by omega), dif_neg (by omega)] at hnext

/-! The frames that are still to be sent at a position of FLUSH (R214, R216). -/

/-- The frames that a whole FLUSH sends (R214). -/
def State.flushFrames (s : State) : List (List Byte) := (List.range 16).flatMap (pageFrames s)

/-- The frames of the pages after page `p`. -/
def State.laterPages (s : State) (p : Nat) : List (List Byte) := (List.range' (p + 1) (15 - p)).flatMap (pageFrames s)

theorem State.flushFrames_eq (s : State) : s.flushFrames = pageFrames s 0 ++ s.laterPages 0 := by
  rw [flushFrames, List.range_eq_range', List.range'_succ, List.flatMap_cons]
  rfl

theorem State.laterPages_of_lt (s : State) {p : Nat} (hp : p + 1 < 16) :
    s.laterPages p = pageFrames s (p + 1) ++ s.laterPages (p + 1) := by
  have hcount : 15 - p = (15 - (p + 1)) + 1 := by omega
  rw [laterPages, hcount, List.range'_succ, List.flatMap_cons]
  rfl

theorem State.laterPages_last (s : State) {p : Nat} (hp : ¬ p + 1 < 16) : s.laterPages p = [] := by
  have hcount : 15 - p = 0 := by omega
  rw [laterPages, hcount]
  rfl

theorem lt_framesPerPage_iff {c : Nat} (hc : 0 < c) (j : Nat) : j < framesPerPage c ↔ j * c < 128 := by
  rw [framesPerPage, ← Nat.succ_le_iff, Nat.le_div_iff_mul_le hc, Nat.succ_mul]
  omega

theorem pageFrames_length (s : State) (p : Nat) :
    (pageFrames s p).length = 3 + framesPerPage (s.params.tmax - 1) := by
  rw [pageFrames, List.length_append, List.length_map, List.length_range]
  rfl

theorem State.flushFrames_length (s : State) :
    s.flushFrames.length = 16 * (3 + framesPerPage (s.params.tmax - 1)) := by
  simp only [flushFrames, List.length_flatMap, pageFrames_length, List.map_const', List.length_range, List.sum_replicate,
    smul_eq_mul]

/-- `ph` is the phase of frame number `i` of a page whose data goes out in chunks of `c` bytes. -/
inductive Phase.IsFrame (c : Nat) : Nat → Phase → Prop where
  | page : IsFrame c 0 .page
  | colLo : IsFrame c 1 .colLo
  | colHi : IsFrame c 2 .colHi
  | data (j : Nat) (o : Fin 128) (h : o.val = j * c) : IsFrame c (3 + j) (.data o)

/-- `left` are the frames that the FLUSH started in `s` has still to send when `SEQ` is `q`. -/
inductive State.FlushLeft (s : State) : Seq → List (List Byte) → Prop where
  | running (p : Fin 16) {i : Nat} {ph : Phase} (h : ph.IsFrame (s.params.tmax - 1) i) :
      FlushLeft s (.flush p ph) ((pageFrames s p.val).drop i ++ s.laterPages p.val)
  | ended : FlushLeft s .idle []

theorem State.FlushLeft.start (s : State) : s.FlushLeft (.flush 0 .page) s.flushFrames := by
  rw [s.flushFrames_eq]
  exact .running 0 .page

/-- A legal `TMAX` leaves room for payload bytes (R7). -/
theorem chunk_pos {p : Params} (hl : p.legal) : 0 < p.tmax - 1 := by
  have htmax := hl.1
  omega

/-- The frames of R214 are those that the steps of R212 emit. -/
theorem pageFrames_getElem? {s : State} (hl : s.params.legal) (p : Fin 16) {i : Nat} {ph : Phase}
    (h : ph.IsFrame (s.params.tmax - 1) i) :
    (pageFrames s p.val)[i]? = some (s.flushCtrl ph :: s.flushPayload p ph) := by
  cases h with
  | page => rw [State.flushPayload, pageAddress_of_page]; rfl
  | colLo | colHi => rfl
  | data j o ho =>
    have hmem := (lt_framesPerPage_iff (chunk_pos hl) j).mpr (ho ▸ o.isLt)
    rw [pageFrames, List.getElem?_append_right (Nat.le_add_right 3 j), List.getElem?_map]
    simp [hmem, State.flushCtrl, State.flushPayload, ho]

/-- After page `p` come the later pages, and after page 15 the end. -/
theorem flushLeft_afterPage (s : State) (p : Fin 16) :
    s.FlushLeft (if h : p.val + 1 < 16 then .flush ⟨p.val + 1, h⟩ .page else .idle) (s.laterPages p.val) := by
  split_ifs with hp
  · rw [s.laterPages_of_lt hp]
    exact .running ⟨p.val + 1, hp⟩ .page
  · rw [s.laterPages_last hp]
    exact .ended

/-- Once frame `i` of page `p` is sent, those behind it are left at the next position. -/
theorem flushLeft_flushNext {s : State} (hl : s.params.legal) (p : Fin 16) {i : Nat} {ph : Phase}
    (h : ph.IsFrame (s.params.tmax - 1) i) :
    s.FlushLeft (flushNext p (s.flushPayload p ph).length ph)
      ((pageFrames s p.val).drop (i + 1) ++ s.laterPages p.val) := by
  cases h with
  | page => exact .running p .colLo
  | colLo => exact .running p .colHi
  | colHi => exact .running p (.data 0 0 (Nat.zero_mul _).symm)
  | data j o ho =>
    rw [State.flushPayload, fbBytes_length, flushNext]
    have hnext : (j + 1) * (s.params.tmax - 1) = o.val + (s.params.tmax - 1) := by rw [Nat.succ_mul, ho]
    by_cases hlt : o.val + min (s.params.tmax - 1) (128 - o.val) < 128
    · rw [dif_pos hlt]
      exact .running p (.data (j + 1) ⟨_, hlt⟩ (by rw [hnext]; dsimp only; omega))
    · have hlast : framesPerPage (s.params.tmax - 1) ≤ j + 1 := by
        rw [← Nat.not_lt, lt_framesPerPage_iff (chunk_pos hl), hnext]
        omega
      rw [dif_neg hlt, List.drop_of_length_le (by rw [pageFrames_length]; omega)]
      exact flushLeft_afterPage s p

/-- FLUSH has ended and nothing is left, or the next step's frame is the first one left. -/
theorem State.FlushLeft.cases {s : State} (hl : s.params.legal) {q : Seq} {left : List (List Byte)}
    (h : s.FlushLeft q left) :
    (q = .idle ∧ left = [])
      ∨ ∃ p ph rest, q = .flush p ph ∧ left = (s.flushCtrl ph :: s.flushPayload p ph) :: rest
          ∧ s.FlushLeft (flushNext p (s.flushPayload p ph).length ph) rest := by
  cases h with
  | ended => exact .inl ⟨rfl, rfl⟩
  | running p hph =>
    obtain ⟨hi, hframe⟩ := List.getElem?_eq_some_iff.mp (pageFrames_getElem? hl p hph)
    refine .inr ⟨p, _, _, rfl, ?_, flushLeft_flushNext hl p hph⟩
    rw [List.drop_eq_getElem_cons hi, hframe, List.cons_append]

theorem State.FlushLeft.idle_iff {s : State} (hl : s.params.legal) {q : Seq} {left : List (List Byte)}
    (h : s.FlushLeft q left) : q = .idle ↔ left = [] := by
  rcases h.cases hl with ⟨rfl, rfl⟩ | ⟨p, ph, rest, rfl, rfl, -⟩
  · exact iff_of_true rfl rfl
  · exact iff_of_false nofun nofun

/-- The frames of FLUSH depend on what a walk keeps. -/
theorem State.WalkKeeps.flushFrame {s t : State} (h : s.WalkKeeps t) (p : Fin 16) (ph : Phase) :
    t.flushCtrl ph :: t.flushPayload p ph = s.flushCtrl ph :: s.flushPayload p ph := by
  cases ph with
  | page | colLo | colHi => simp only [flushCtrl, flushPayload, h.params]
  | data o => simp only [flushCtrl, flushPayload, h.params, h.fb]

theorem State.flushPayload_length_le {s : State} (hl : s.params.legal) (p : Fin 16) (ph : Phase) :
    (s.flushPayload p ph).length ≤ min (s.params.tmax - 1) 128 := by
  have hone : 1 ≤ min (s.params.tmax - 1) 128 := le_min (chunk_pos hl) (by decide)
  cases ph with
  | page | colLo | colHi => exact hone
  | data o =>
    rw [flushPayload, fbBytes_length]
    exact min_le_min_left _ (Nat.sub_le _ _)

/-! FLUSH as a run (R214, R215, R217, R219). -/

/-- The FLUSH that started in `s` has come to `t` without a failure: the frames but `left` were sent and answered `Ok`. -/
structure State.FlushedTo (s : State) (left : List (List Byte)) (t : State) : Prop where
  keeps : s.WalkKeeps t
  bstate : t.bstate = s.bstate
  result : t.result = if t.seq = .idle then .ok else s.result
  position : s.FlushLeft t.seq left
  sent : ∃ sent, s.flushFrames = sent ++ left ∧ t.wire = s.wire ++ sent.map (okEntry s.addr)

/-- The FLUSH that started in `s` has ended in `t` because a frame failed (R215). -/
structure State.FlushFailed (s : State) (c : Cause) (t : State) : Prop where
  keeps : s.WalkKeeps t
  bstate : t.bstate = s.bstate
  result : t.result = .err c.toError
  seq : t.seq = .idle
  sent : ∃ sent failing later, s.flushFrames = sent ++ failing :: later ∧
    match c with
    | .transportError e =>
      t.wire = s.wire ++ sent.map (okEntry s.addr) ++ [{ addr := s.addr, bytes := failing, answer := .err e }]
    | .payloadOverflow m =>
      t.wire = s.wire ++ sent.map (okEntry s.addr) ∧ m = failing.length ∧ s.params.stageCap < m

/-- With nothing presented, a step at a position of FLUSH is the sequencer's. -/
theorem step_flush {t : State} {p : Fin 16} {ph : Phase} (hp : t.port = []) (hq : t.seq = .flush p ph) :
    step t = .next (t.flushStep p ph) := by
  rw [stepOfTheSequencer.1 t hp (State.busy_of_flush hq), seqStep_flush hq]

/-- With nothing presented, an idle block stays as it is (R14, R24). -/
theorem runSteps_idle {t : State} (hp : t.port = []) (hq : t.seq = .idle) (n : Nat) : runSteps n t = .next t := by
  induction n with
  | zero => rfl
  | succ n ih =>
    obtain ⟨-, -, -, hstays⟩ := stepOfTheSequencer
    rw [runSteps, hstays t hp (State.busy_eq_false.mpr hq)]
    exact ih

namespace State.FlushedTo

variable {s t u v : State} {p : Fin 16} {ph : Phase} {left rest : List (List Byte)}

theorem start (hq : s.seq = .flush 0 .page) : s.FlushedTo s.flushFrames s where
  keeps := .refl s
  bstate := rfl
  result := by rw [hq, if_neg nofun]
  position := hq ▸ .start s
  sent := ⟨[], rfl, (List.append_nil _).symm⟩

theorem ended (h : s.FlushedTo left t) (hl : s.params.legal) (hq : t.seq = .idle) :
    t.result = .ok ∧ t.wire = s.wire ++ flushEntries s := by
  obtain ⟨sent, hall, hwire⟩ := h.sent
  rw [(h.position.idle_iff hl).mp hq, List.append_nil] at hall
  exact ⟨by rw [h.result, if_pos hq], by rw [hwire, ← hall]; rfl⟩

/-- The first frame left is answered `Ok`. -/
theorem next (h : s.FlushedTo ((s.flushCtrl ph :: s.flushPayload p ph) :: rest) t) (hq : t.seq = .flush p ph)
    (hnext : s.FlushLeft (flushNext p (s.flushPayload p ph).length ph) rest) (he : t.emitFlush p ph = (u, .ok)) :
    s.FlushedTo rest (t.flushStep p ph) := by
  have hframe := h.keeps.flushFrame p ph
  obtain ⟨hseq, hres⟩ := flushStep_ok he
  rw [(List.cons.inj hframe).2] at hseq hres
  obtain ⟨hu, ha⟩ := eq_sendFrame_of_emit_ok he
  obtain ⟨sent, hall, hwire⟩ := h.sent
  refine ⟨h.keeps.trans (t.flushStep_keeps p ph), (flushStep_bstate hq).trans h.bstate, ?result, hseq ▸ hnext,
    sent ++ [_], by rw [hall, List.append_assoc]; rfl, ?wire⟩
  case result => rw [hres, hseq, h.result, hq, if_neg (c := Seq.flush p ph = .idle) nofun]
  case wire =>
    rw [flushStep_wire, he, hu, State.sendFrame_wire, hframe, ha, h.keeps.addr, hwire, List.append_assoc, List.map_append]
    rfl

/-- The first frame left fails. -/
theorem fails (h : s.FlushedTo ((s.flushCtrl ph :: s.flushPayload p ph) :: rest) t) (hq : t.seq = .flush p ph)
    {c : Cause} (he : t.emitFlush p ph = (u, .err c)) : s.FlushFailed c (t.flushStep p ph) := by
  have hframe := h.keeps.flushFrame p ph
  obtain ⟨hseq, hres⟩ := flushStep_fails he
  obtain ⟨sent, hall, hwire⟩ := h.sent
  refine ⟨h.keeps.trans (t.flushStep_keeps p ph), (flushStep_bstate hq).trans h.bstate, hres, hseq, sent, _, rest, hall, ?_⟩
  rw [flushStep_wire, he, ← hframe, ← hwire, ← h.keeps.addr, ← h.keeps.params, List.length_cons, Nat.add_comm]
  cases c with
  | transportError | payloadOverflow => exact wire_of_emit_err he

/-- However far it runs with nothing presented, FLUSH goes on, has ended `Ok`, or has stopped at the frame that failed. -/
theorem runSteps_cases (h : s.FlushedTo left t) (hp : s.port = []) (hl : s.params.legal) {n : Nat}
    (hrun : runSteps n t = .next v) : (∃ left, s.FlushedTo left v) ∨ ∃ c, s.FlushFailed c v := by
  induction n generalizing left t with
  | zero => cases hrun; exact .inl ⟨left, h⟩
  | succ n ih =>
    have hport := h.keeps.port.trans hp
    rcases h.position.cases hl with ⟨hq, -⟩ | ⟨p, ph, rest, hq, rfl, hnext⟩
    · cases (runSteps_idle hport hq (n + 1)).symm.trans hrun
      exact .inl ⟨left, h⟩
    · rw [runSteps, step_flush hport hq] at hrun
      rcases he : t.emitFlush p ph with ⟨u, _ | c⟩
      · exact ih (h.next hq hnext he) hrun
      · have hfail := h.fails hq he
        cases (runSteps_idle (hfail.keeps.port.trans hp) hfail.seq n).symm.trans hrun
        exact .inr ⟨c, hfail⟩

/-- With room for the longest frame and an answer `Ok` for each frame left, FLUSH sends one frame a step to the end. -/
theorem runSteps_ends (h : s.FlushedTo left t) (hp : s.port = []) (hl : s.params.legal)
    (hcap : 1 + min (s.params.tmax - 1) 128 ≤ s.params.stageCap) {answers : List Answer}
    (ha : t.answers = List.replicate left.length .ok ++ answers) :
    ∃ v, runSteps left.length t = .next v ∧ s.FlushedTo [] v ∧ v.answers = answers := by
  induction left generalizing t with
  | nil => exact ⟨t, rfl, h, ha⟩
  | cons frame rest ih =>
    obtain ⟨-, hnil⟩ | ⟨p, ph, rest, hq, hcons, hnext⟩ := h.position.cases hl
    · cases hnil
    · cases hcons
      have hans : t.answers = .ok :: (List.replicate rest.length .ok ++ answers) := ha
      have hfit : 1 + (t.flushPayload p ph).length ≤ t.params.stageCap := by
        rw [(List.cons.inj (h.keeps.flushFrame p ph)).2, h.keeps.params]
        exact (Nat.add_le_add_left (flushPayload_length_le hl p ph) 1).trans hcap
      have he := emitFlush_answered hfit (t.nextAnswer_cons hans)
      rw [List.length_cons, runSteps, step_flush (h.keeps.port.trans hp) hq]
      refine ih (h.next hq hnext he) ?_
      rw [flushStep_answers, he, State.sendFrame_answers, t.takeAnswer_cons hans]

end State.FlushedTo

/-- Settles O38: the run that ended in an error is the one that stopped at the frame that failed. -/
theorem flushStopsAtFirstFailure : Obligations.FlushStopsAtFirstFailure := by
  intro n s t error hq hp hres hl hrun herr
  rcases (State.FlushedTo.start hq).runSteps_cases hp hl hrun with ⟨left, h⟩ | ⟨c, h⟩
  · have hr := h.result
    rw [hres, herr] at hr
    split_ifs at hr
  · obtain ⟨sent, failing, later, hall, hwire⟩ := h.sent
    cases h.result.symm.trans herr
    refine ⟨sent, failing, later, hall, h.seq, ?_, h.keeps.fb, h.keeps.addr, h.keeps.busPresent, h.bstate, h.keeps.cfg⟩
    cases c with
    | transportError e => exact hwire
    | payloadOverflow m => exact hwire

/-- Settles O39: the run that ended `OK` has no frame left. -/
theorem flushThatEndsOkSentTheFramebuffer : Obligations.FlushThatEndsOkSentTheFramebuffer := by
  intro n s t hq hp hres hl hrun hok
  rcases (State.FlushedTo.start hq).runSteps_cases hp hl hrun with ⟨left, h⟩ | ⟨c, h⟩
  · have hidle : t.seq = .idle := by
      by_contra hbusy
      have hr := h.result
      rw [if_neg hbusy, hres, hok] at hr
      cases hr
    exact ⟨hidle, (h.ended hl hidle).2, h.keeps.fb⟩
  · cases h.result.symm.trans hok

/-- Settles O40: a whole FLUSH has `16 * (3 + k)` frames, and sends one a step. -/
theorem flushSendsTheFramebuffer : Obligations.FlushSendsTheFramebuffer := by
  intro s rest hq hp hl hcap ha
  rw [← s.flushFrames_length] at ha ⊢
  obtain ⟨t, hrun, ht, hans⟩ := (State.FlushedTo.start hq).runSteps_ends hp hl hcap ha
  have hidle := (ht.position.idle_iff hl).mpr rfl
  obtain ⟨hres, hwire⟩ := ht.ended hl hidle
  exact ⟨t, hrun, hidle, hres, hwire, hans, ht.keeps.fb, ht.keeps.addr, ht.bstate, ht.keeps.cfg⟩

end Sys2Proof.Machine

namespace Sys2Proof.Machine

/-! CONNECT and BUILD in an idle builder (45_builder R231, R232, R233). -/

theorem exec_connect {s : State} (h : s.builderIdle = true) (addr : Byte) :
    exec (.connect addr) s = .next { s with busPresent := true, addr := addr, bstate := .configured } :=
  if_pos h

theorem exec_build_of_bus {s : State} (h : s.builderIdle = true) (hbus : s.busPresent = true) :
    exec .build s = .next ((s.setFb (filled 0x00)).accept (.init .build 0)) := by
  rw [exec, execBuild, if_pos h, if_pos hbus]

/-- An idle builder has nothing in flight, so the failure leaves `SEQ` and the controller as they were. -/
theorem exec_build_of_noBus {s : State} (h : s.builderIdle = true) (hbus : s.busPresent = false) :
    exec .build s = .next { s with bstate := .failed .noBusConnected, result := .err .noBusConnected } := by
  obtain ⟨hq, -⟩ := State.builderIdle_iff.mp h
  rw [exec, execBuild, if_pos h, if_neg (by simp [hbus]), State.raiseError, hq, Controller.afterFailure]

/-- Settles O43: an idle builder admits CONNECT. -/
theorem connectSuppliesTheBus : Obligations.ConnectSuppliesTheBus := fun _ addr hq hb =>
  exec_connect (State.builderIdle_iff.mpr ⟨hq, hb⟩) addr

/-- Settles O44: the framebuffer with which the walk starts is filled with `0x00`. -/
theorem buildFailsOrStartsTheWalk : Obligations.BuildFailsOrStartsTheWalk := by
  intro s hq hb
  have hidle : s.builderIdle = true := State.builderIdle_iff.mpr ⟨hq, hb⟩
  exact ⟨exec_build_of_noBus hidle, fun hbus => ⟨_, exec_build_of_bus hidle hbus, readByte_filled 0x00⟩⟩

/-! The admission table (45_builder R238). -/

/-- An operation is accepted exactly where the table's condition `P` holds, and refused by name elsewhere. -/
def State.AdmittedWhen (s : State) (P : Prop) (i : Instr) : Prop :=
  (P → ∃ t, exec i s = .next t) ∧ (¬ P → exec i s = .refused (.notAdmitted i))

/-- What an operation's own admission check decides, the table's condition that it stands for decides. -/
theorem State.AdmittedWhen.of_check {s : State} {P : Prop} {check : Bool} {i : Instr} (hcheck : check = true ↔ P)
    (haccept : check = true → ∃ t, exec i s = .next t)
    (hrefuse : ¬ check = true → exec i s = .refused (.notAdmitted i)) : s.AdmittedWhen P i :=
  ⟨fun hP => haccept (hcheck.mpr hP), fun hP => hrefuse (mt hcheck.mp hP)⟩

theorem exec_build_completes {s : State} (h : s.builderIdle = true) : ∃ t, exec .build s = .next t := by
  cases hbus : s.busPresent with
  | true => exact ⟨_, exec_build_of_bus h hbus⟩
  | false => exact ⟨_, exec_build_of_noBus h hbus⟩

theorem exec_cancel_completes {s : State} (h : s.cancellable = true) : ∃ t, exec .cancel s = .next t := by
  rw [exec, execCancel, if_pos h]
  split_ifs
  · exact ⟨_, rfl⟩
  · exact ⟨_, rfl⟩

/-- The row of CONNECT and BUILD. -/
theorem admitted_in_idle_builder (s : State) (addr : Byte) :
    ∀ i ∈ [Instr.connect addr, .build],
      s.AdmittedWhen (s.seq = .idle ∧ (s.bstate = .unconfigured ∨ s.bstate = .configured)) i := by
  simp only [List.forall_mem_cons, List.not_mem_nil, false_implies, implies_true, and_true]
  exact ⟨.of_check State.builderIdle_iff (fun h => ⟨_, exec_connect h addr⟩) fun h => if_neg h,
    .of_check State.builderIdle_iff exec_build_completes fun h => if_neg h⟩

/-- The rows of the operations on a session. -/
theorem admitted_in_idle_session (s : State) (x y : Coord) (on : Bool) :
    ∀ i ∈ [Instr.initializeOp, .flush, .setPixel x y on, .clear on, .asBytes],
      s.AdmittedWhen (s.seq = .idle ∧ s.bstate = .built) i := by
  simp only [List.forall_mem_cons, List.not_mem_nil, false_implies, implies_true, and_true]
  exact ⟨.of_check State.sessionIdle_iff (fun h => ⟨_, if_pos h⟩) fun h => if_neg h,
    .of_check State.sessionIdle_iff (fun h => ⟨_, if_pos h⟩) fun h => if_neg h,
    .of_check State.sessionIdle_iff (fun h => ⟨_, exec_setPixel_idle h x y on⟩) fun h => if_neg h,
    .of_check State.sessionIdle_iff (fun h => ⟨_, exec_clear_idle h on⟩) fun h => if_neg h,
    .of_check State.sessionIdle_iff (fun h => ⟨_, exec_asBytes_idle h⟩) fun h => if_neg h⟩

/-- The row of CANCEL. -/
theorem cancel_admitted_while_busy (s : State) :
    s.AdmittedWhen (s.seq ≠ .idle ∧ s.params.binding = .nonblocking) .cancel :=
  .of_check State.cancellable_iff exec_cancel_completes fun h => if_neg h

/-- Settles O26: every operation but DROP begins with its row's check. -/
theorem admissionTable : Obligations.AdmissionTable := fun s addr x y on =>
  ⟨admitted_in_idle_builder s addr, admitted_in_idle_session s x y on, cancel_admitted_while_busy s, _, rfl⟩

end Sys2Proof.Machine

namespace Sys2Proof.Machine

/-! `BSTATE` against what the block is doing (10_state R25, R35 b). -/

namespace State.Inv

variable {s : State}

theorem bstate_of_buildWalk (h : s.Inv) {k : Fin 15} (hq : s.seq = .init .build k) : s.bstate = .configured := by
  have hseq := h.seq
  simpa [seqMatchesBState, hq] using hseq

/-- Of what a busy block does, only BUILD's walk comes before the session. -/
theorem bstate_of_sessionBusy (h : s.Inv) (hb : s.busy = true) (hwalk : s.seq.isBuildWalk = false) : s.bstate = .built := by
  have hseq := h.seq
  rcases hq : s.seq with _ | ⟨_ | _, k⟩ | ⟨p, ph⟩
  · exact absurd hq (State.busy_eq_true.mp hb)
  · simpa [seqMatchesBState, hq] using hseq
  · simp [hq, Seq.isBuildWalk] at hwalk
  · simpa [seqMatchesBState, hq] using hseq

theorem unconfigured_of_noBus (h : s.Inv) (hidle : s.builderIdle = true) (hbus : s.busPresent = false) :
    s.bstate = .unconfigured := by
  obtain ⟨-, hst⟩ := State.builderIdle_iff.mp hidle
  refine hst.resolve_right fun hconf => ?_
  have hmatch := h.bus
  simp [busMatchesBState, hconf, hbus] at hmatch

theorem configured_of_bus (h : s.Inv) (hidle : s.builderIdle = true) (hbus : s.busPresent = true) :
    s.bstate = .configured := by
  obtain ⟨-, hst⟩ := State.builderIdle_iff.mp hidle
  refine hst.resolve_left fun hun => ?_
  have hmatch := h.bus
  simp [busMatchesBState, hun, hbus] at hmatch

end State.Inv

/-! How the sequencer's step ends, for each operation that may be running (43_initialize R193, R195, 44_flush R212). -/

/-- The sequencer stands still, or makes the step of the walk or of the FLUSH that is running. -/
theorem SeqChange.cases_seq {s t : State} (h : SeqChange s t) :
    t = s ∨ (∃ ctx k, s.seq = .init ctx k ∧ t = s.initStep ctx k)
      ∨ ∃ p ph, s.seq = .flush p ph ∧ t = s.flushStep p ph := by
  cases h with
  | stayed => exact .inl rfl
  | initStep ctx k hq => exact .inr (.inl ⟨ctx, k, hq, rfl⟩)
  | flushStep p ph ctrl payload hq hf =>
    cases (flushFrame_eq s p ph).symm.trans hf
    exact .inr (.inr ⟨p, ph, hq, rfl⟩)

/-- The step at `INIT(ctx, k)` goes on to the next frame, completes the walk, or fails. -/
theorem State.initStep_cases {s : State} {ctx : Ctx} {k : Fin 15} (hq : s.seq = .init ctx k) :
    (∃ hk : k.val + 1 < 15, (s.emitInit k).2 = .ok ∧ (s.initStep ctx k).seq = .init ctx ⟨k.val + 1, hk⟩
        ∧ (s.initStep ctx k).bstate = s.bstate)
      ∨ (k = 14 ∧ (s.emitInit k).2 = .ok ∧ (s.initStep ctx k).seq = .idle ∧ (s.initStep ctx k).result = .ok
        ∧ (s.initStep ctx k).bstate = ctx.bstateAtEnd s.bstate .built)
      ∨ ((s.initStep ctx k).seq = .idle ∧ (∃ c, (s.initStep ctx k).result = .err (.initializationFailed c))
        ∧ (s.initStep ctx k).bstate = ctx.bstateAtEnd s.bstate (.failed .initializationFailed)) := by
  rcases he : s.emitInit k with ⟨u, _ | c⟩
  · rcases Nat.lt_or_ge (k.val + 1) 15 with hk | hk
    · obtain ⟨hseq, -, hb⟩ := initStep_goesOn ctx hk he
      exact .inl ⟨hk, rfl, hseq, hb⟩
    · have hlast : k = 14 := Fin.ext (show k.val = 14 by omega)
      exact .inr (.inl ⟨hlast, rfl, initStep_completes ctx (congrArg Fin.val hlast) he⟩)
  · obtain ⟨hseq, hres, hb⟩ := initStep_fails hq he
    exact .inr (.inr ⟨hseq, ⟨c, hres⟩, hb⟩)

/-- A walk that INITIALIZE started does not write `BSTATE`, however its step ends (R195, R256). -/
theorem State.initStep_host_bstate {s : State} {k : Fin 15} (hq : s.seq = .init .host k) :
    (s.initStep .host k).bstate = s.bstate := by
  rcases State.initStep_cases hq with ⟨-, -, -, hb⟩ | ⟨-, -, -, -, hb⟩ | ⟨-, -, hb⟩
  · exact hb
  · exact hb
  · exact hb

/-! The transitions of `BSTATE` (45_builder R235, R236). -/

/-- From `s` to `t`, `BSTATE` stays or moves along one row of the transition table. -/
inductive BuilderMove (s t : State) : Prop where
  | stays (h : t.bstate = s.bstate)
  /-- DROP, or CANCEL in BUILD's walk: "reset". -/
  | resets (hb : t.bstate = .unconfigured) (hq : t.seq = .idle) (hfb : t.fb = []) (hbus : t.busPresent = false)
      (haddr : t.addr = Config.addrDefault) (hres : t.result = .none ∨ t.result = .cancelled ∧ s.seq.isBuildWalk = true)
      (hwire : t.wire = s.wire)
  /-- CONNECT. -/
  | connects (hs : s.bstate = .unconfigured) (hq : s.seq = .idle) (hb : t.bstate = .configured) (hbus : t.busPresent = true)
      (hres : t.result = s.result)
  /-- BUILD without a bus. -/
  | lacksBus (hs : s.bstate = .unconfigured) (hq : s.seq = .idle) (hb : t.bstate = .failed .noBusConnected)
      (hres : t.result = .err .noBusConnected) (hwire : t.wire = s.wire)
  /-- BUILD's walk ends `OK`. -/
  | completes (hs : s.bstate = .configured) (hq : s.seq = .init .build 14) (hb : t.bstate = .built) (hres : t.result = .ok)
      (hidle : t.seq = .idle)
  /-- BUILD's walk fails. -/
  | fails (hs : s.bstate = .configured) (hq : s.seq.isBuildWalk = true) (hb : t.bstate = .failed .initializationFailed)
      (hidle : t.seq = .idle) (c : Cause) (hres : t.result = .err (.initializationFailed c))

theorem ExecChange.builderMove {s t : State} (hi : s.Inv) (h : ExecChange s t) : BuilderMove s t := by
  cases h with
  | connected addr hidle =>
    obtain ⟨hq, hun | hconf⟩ := State.builderIdle_iff.mp hidle
    · exact .connects hun hq rfl rfl rfl
    · exact .stays hconf.symm
  | buildFailed hidle hbus =>
    obtain ⟨hq, -⟩ := State.builderIdle_iff.mp hidle
    exact .lacksBus (hi.unconfigured_of_noBus hidle hbus) hq rfl rfl rfl
  | cancelledBuild _ hwalk => exact .resets rfl rfl rfl rfl rfl (.inr ⟨rfl, hwalk⟩) rfl
  | dropped => exact .resets rfl rfl rfl rfl rfl (.inl rfl) rfl
  | commandSent cmd =>
    obtain ⟨-, -, -, -, hb, -⟩ := ((State.FramerKeeps.refl s).emit s.params.ctrlCmd.byte cmd).finishFramer
    exact .stays hb
  | dataSent data =>
    obtain ⟨-, -, -, -, hb, -⟩ := (State.FramerKeeps.split ctrlData data s).finishFramer
    exact .stays hb
  | returned | unchanged | drew | buildStarted | initAccepted | flushAccepted | cancelledOperation => exact .stays rfl

theorem initStep_builderMove {s : State} {ctx : Ctx} {k : Fin 15} (hi : s.Inv) (hq : s.seq = .init ctx k) :
    BuilderMove s (s.initStep ctx k) := by
  cases ctx with
  | host => exact .stays (State.initStep_host_bstate hq)
  | build =>
    have hconf := hi.bstate_of_buildWalk hq
    rcases State.initStep_cases hq with ⟨-, -, -, hb⟩ | ⟨rfl, -, hidle, hres, hb⟩ | ⟨hidle, ⟨c, hres⟩, hb⟩
    · exact .stays hb
    · exact .completes hconf hq hb hres hidle
    · exact .fails hconf (Seq.isBuildWalk_iff.mpr ⟨k, hq⟩) hb hidle c hres

theorem SeqChange.builderMove {s t : State} (hi : s.Inv) (h : SeqChange s t) : BuilderMove s t := by
  rcases h.cases_seq with rfl | ⟨ctx, k, hq, rfl⟩ | ⟨p, ph, hq, rfl⟩
  · exact .stays rfl
  · exact initStep_builderMove hi hq
  · exact .stays (State.flushStep_bstate hq)

/-- Settles O45: an instruction makes the moves of the host's rows, the sequencer those of the ends of BUILD's walk. -/
theorem builderTransitions : Obligations.BuilderTransitions := by
  intro s t hi hstep
  have hmove : ∃ port, BuilderMove (s.setPort port) t := by
    rcases step_cases hstep with ⟨_, port, i, _, _, he⟩ | ⟨port, _, he⟩ | ⟨_, rfl⟩
    · exact ⟨port, (exec_change he).builderMove (hi.setPort port)⟩
    · exact ⟨port, (seqStep_change he).builderMove (hi.setPort port)⟩
    · exact ⟨[], .stays rfl⟩
  obtain ⟨port, hmove⟩ := hmove
  cases hmove with
  | stays h => exact .inl h
  | resets hb hq hfb hbus haddr hres hwire => exact .inr (.inl ⟨hb, hq, hfb, hbus, haddr, hres, hwire⟩)
  | connects hs hq hb hbus hres => exact .inr (.inr (.inl ⟨hs, hq, hb, hbus, hres⟩))
  | lacksBus hs hq hb hres hwire => exact .inr (.inr (.inr (.inl ⟨hs, hq, hb, hres, hwire⟩)))
  | completes hs hq hb hres hidle => exact .inr (.inr (.inr (.inr (.inl ⟨hs, hq, hb, hres, hidle⟩))))
  | fails hs hq hb hidle c hres => exact .inr (.inr (.inr (.inr (.inr ⟨hs, hq, hb, hidle, c, hres⟩))))

/-! "`WIRE` since reset" against the frames of the walk (10_state R29, 45_builder R240, R296). -/

/-- What a step appends to `WIRE` it appends to the record since reset, whose mark lies within `WIRE`. -/
theorem State.Inv.wireSinceReset_append {s t : State} (hi : s.Inv) {new : List WireEntry} (hwire : t.wire = s.wire ++ new)
    (hbase : t.wireBase = s.wireBase) : t.wireSinceReset = s.wireSinceReset ++ new := by
  rw [wireSinceReset, hwire, hbase, List.drop_append_of_le_length hi.base, wireSinceReset]

/-- The walk's frames depend on `ADDR` and the configuration alone. -/
theorem initEntries_congr {s t : State} (haddr : t.addr = s.addr) (hcfg : s.SameConfig t) (n : Nat) :
    initEntries t n = initEntries s n := by
  obtain ⟨hc, hp⟩ := hcfg
  have hentry : initEntry t = initEntry s := funext fun k => by rw [initEntry, haddr, hc, hp, initEntry]
  rw [initEntries, hentry, initEntries]

/-- A frame of the walk that ended `Ok` is its entry in `WIRE`. -/
theorem State.emitInit_wire_of_ok {s : State} {k : Fin 15} (h : (s.emitInit k).2 = .ok) :
    (s.emitInit k).1.wire = s.wire ++ [initEntry s k] := by
  obtain ⟨hsent, hans⟩ := eq_sendFrame_of_emit_ok (Prod.ext rfl h : s.emitInit k = ((s.emitInit k).1, .ok))
  rw [hsent, sendFrame_wire, hans, initEntry, okEntry]

/-! The boot record, read in each state of the builder. -/

section BootTrace

variable {s : State}

theorem State.bootTrace_of_builderIdle (h : s.builderIdle = true) : s.BootTrace ↔ s.wireSinceReset = [] := by
  obtain ⟨hq, hb | hb⟩ := State.builderIdle_iff.mp h
  · rw [BootTrace, hb]
  · rw [BootTrace, hb, hq]

theorem State.bootTrace_of_buildWalk {k : Fin 15} (hb : s.bstate = .configured) (hq : s.seq = .init .build k) :
    s.BootTrace ↔ s.wireSinceReset = initEntries s k.val ∧ s.fb = [] := by
  rw [BootTrace, hb, hq]

theorem State.bootTrace_of_built (hb : s.bstate = .built) : s.BootTrace ↔ initEntries s 15 <+: s.wireSinceReset := by
  rw [BootTrace, hb]

end BootTrace

/-- In `Built`, whatever keeps the session and only appends to `WIRE` keeps the record. -/
theorem State.BootTrace.of_session {s t : State} (h : s.BootTrace) (hi : s.Inv) (hs : s.bstate = .built)
    (hcfg : s.SameConfig t) (hgrows : s.WireGrows t) (hb : t.bstate = s.bstate) (haddr : t.addr = s.addr)
    (hbase : t.wireBase = s.wireBase) : t.BootTrace := by
  obtain ⟨new, hwire, -⟩ := hgrows
  rw [bootTrace_of_built (hb.trans hs), initEntries_congr haddr hcfg, hi.wireSinceReset_append hwire hbase]
  exact ((bootTrace_of_built hs).mp h).trans (List.prefix_append _ new)

/-- A reset leaves nothing since reset. -/
theorem State.wireSinceReset_dropReset (s : State) : s.dropReset.wireSinceReset = [] := List.drop_length

theorem ExecChange.bootTrace {s t : State} (hi : s.Inv) (hboot : s.BootTrace) (h : ExecChange s t) : t.BootTrace := by
  have hcfg := h.sameConfig
  have hgrows := h.wireGrows
  cases h with
  | returned | unchanged => exact hboot
  | connected addr hidle =>
    obtain ⟨hq, -⟩ := State.builderIdle_iff.mp hidle
    refine (State.bootTrace_of_builderIdle ?idle).mpr ((State.bootTrace_of_builderIdle hidle).mp hboot)
    exact State.builderIdle_iff.mpr ⟨hq, .inr rfl⟩
  | buildFailed hidle => exact (State.bootTrace_of_builderIdle hidle).mp hboot
  | buildStarted hidle hbus =>
    refine (State.bootTrace_of_buildWalk (k := 0) ?conf rfl).mpr ⟨(State.bootTrace_of_builderIdle hidle).mp hboot, rfl⟩
    exact hi.configured_of_bus hidle hbus
  | cancelledBuild | dropped => exact s.wireSinceReset_dropReset
  | cancelledOperation hc hwalk =>
    have hbusy : s.busy = true := State.busy_eq_true.mpr (State.cancellable_iff.mp hc).1
    exact hboot.of_session hi (hi.bstate_of_sessionBusy hbusy hwalk) hcfg hgrows rfl rfl rfl
  | drew _ hidle | initAccepted hidle | flushAccepted hidle =>
    exact hboot.of_session hi (State.sessionIdle_iff.mp hidle).2 hcfg hgrows rfl rfl rfl
  | commandSent cmd hidle =>
    obtain ⟨-, -, haddr, -, hb, -, -, hbase, -⟩ := ((State.FramerKeeps.refl s).emit s.params.ctrlCmd.byte cmd).finishFramer
    exact hboot.of_session hi (State.sessionIdle_iff.mp hidle).2 hcfg hgrows hb haddr hbase
  | dataSent data hidle =>
    obtain ⟨-, -, haddr, -, hb, -, -, hbase, -⟩ := (State.FramerKeeps.split ctrlData data s).finishFramer
    exact hboot.of_session hi (State.sessionIdle_iff.mp hidle).2 hcfg hgrows hb haddr hbase

theorem State.initStep_wireBase (s : State) (ctx : Ctx) (k : Fin 15) : (s.initStep ctx k).wireBase = s.wireBase := by
  obtain ⟨q, r, b, c, ht⟩ := afterInit_progressOnly ctx k (s.emitInit k)
  rw [initStep, ht]
  exact emit_wireBase ..

theorem State.flushStep_wireBase (s : State) (p : Fin 16) (ph : Phase) : (s.flushStep p ph).wireBase = s.wireBase := by
  obtain ⟨q, r, b, c, ht⟩ := s.flushStep_progressOnly p ph
  rw [ht]
  exact emit_wireBase ..

/-- A frame of BUILD's walk that ended `Ok` extends the record by its entry. -/
theorem initStep_wireSinceReset {s : State} {k : Fin 15} (hi : s.Inv) (hboot : s.BootTrace) (hq : s.seq = .init .build k)
    (hok : (s.emitInit k).2 = .ok) :
    (s.initStep .build k).wireSinceReset = initEntries (s.initStep .build k) (k.val + 1) := by
  have hkeeps := s.initStep_keeps .build k
  obtain ⟨hsent, -⟩ := (State.bootTrace_of_buildWalk (hi.bstate_of_buildWalk hq) hq).mp hboot
  have hwire : (s.initStep .build k).wire = s.wire ++ [initEntry s k] := by
    rw [State.initStep_wire, State.emitInit_wire_of_ok hok]
  rw [hi.wireSinceReset_append hwire (s.initStep_wireBase .build k), hsent,
    initEntries_congr hkeeps.addr ⟨hkeeps.cfg, hkeeps.params⟩, initEntries_succ]

theorem buildStep_bootTrace {s : State} {k : Fin 15} (hi : s.Inv) (hboot : s.BootTrace) (hq : s.seq = .init .build k) :
    (s.initStep .build k).BootTrace := by
  have hconf := hi.bstate_of_buildWalk hq
  obtain ⟨-, hfb⟩ := (State.bootTrace_of_buildWalk hconf hq).mp hboot
  rcases State.initStep_cases hq with ⟨hk, hok, hseq, hb⟩ | ⟨rfl, hok, -, -, hb⟩ | ⟨-, -, hb⟩
  · rw [State.bootTrace_of_buildWalk (hb.trans hconf) hseq]
    exact ⟨initStep_wireSinceReset hi hboot hq hok, (s.initStep_keeps .build k).fb.trans hfb⟩
  · rw [State.bootTrace_of_built hb, initStep_wireSinceReset hi hboot hq hok]
    exact List.prefix_rfl
  · rw [State.BootTrace, hb]
    trivial

theorem SeqChange.bootTrace {s t : State} (hi : s.Inv) (hboot : s.BootTrace) (h : SeqChange s t) : t.BootTrace := by
  have hcfg := h.sameConfig
  have hgrows := h.wireGrows
  rcases h.cases_seq with rfl | ⟨_ | _, k, hq, rfl⟩ | ⟨p, ph, hq, rfl⟩
  · exact hboot
  · have hs := hi.bstate_of_sessionBusy (State.busy_of_init hq) (by rw [hq, Seq.isBuildWalk])
    exact hboot.of_session hi hs hcfg hgrows (State.initStep_host_bstate hq) (s.initStep_keeps .host k).addr
      (s.initStep_wireBase .host k)
  · exact buildStep_bootTrace hi hboot hq
  · have hs := hi.bstate_of_sessionBusy (State.busy_of_flush hq) (by rw [hq, Seq.isBuildWalk])
    exact hboot.of_session hi hs hcfg hgrows (State.flushStep_bstate hq) (s.flushStep_keeps p ph).addr
      (s.flushStep_wireBase p ph)

/-- Settles O46: the record grows by the walk's frames until `Built`, which is then left only by a reset. -/
theorem stepKeepsBootTrace : Obligations.StepKeepsBootTrace := fun _ _ hi hboot hstep =>
  step_keeps (P := fun s => s.Inv ∧ s.BootTrace) (Q := State.BootTrace)
    (fun _ q ⟨hi, hboot⟩ => ⟨hi.setPort q, hboot⟩) (fun _ ⟨_, hboot⟩ => hboot)
    (fun _ _ ⟨hi, hboot⟩ hc => hc.bootTrace hi hboot) (fun _ _ ⟨hi, hboot⟩ hc => hc.bootTrace hi hboot) ⟨hi, hboot⟩ hstep

end Sys2Proof.Machine

namespace Sys2Proof.Machine

/-! What CANCEL does, and how long the controller stays unknown after it (60_exceptions R262, 44_flush R218). -/

section Cancel

variable {s : State}

theorem exec_cancel_of_buildWalk (h : s.cancellable = true) (hwalk : s.seq.isBuildWalk = true) :
    exec .cancel s = .next { s.dropReset with result := .cancelled } := by
  rw [exec, execCancel, if_pos h, if_pos hwalk]

theorem exec_cancel_of_session (h : s.cancellable = true) (hwalk : s.seq.isBuildWalk = false) :
    exec .cancel s = .next { s with seq := .idle, result := .cancelled, ctl := s.ctl.afterCancel s.seq } := by
  rw [exec, execCancel, if_pos h, if_neg (by simp [hwalk])]

end Cancel

namespace Controller

variable {c : Controller}

/-- An operation that is cancelled while it runs leaves the controller unknown, whatever was known before. -/
theorem afterCancel_unknown_of_busy (c : Controller) {q : Seq} (hq : q ≠ .idle) : (c.afterCancel q).reliance = .unknown := by
  cases q with
  | idle => exact absurd rfl hq
  | init ctx k => rfl
  | flush p ph => rfl

theorem afterCancel_unknown (h : c.reliance = .unknown) (q : Seq) : (c.afterCancel q).reliance = .unknown :=
  (c.afterCancel_reliance q).elim (·.trans h) id

theorem afterFailure_unknown (h : c.reliance = .unknown) (q : Seq) : (c.afterFailure q).reliance = .unknown := by
  cases q with
  | idle => exact h
  | init ctx k => exact fail_unknown h 0
  | flush p ph => exact fail_unknown h _

/-- No cell and no pointer of an unknown controller counts as known. -/
theorem known_of_unknown (h : c.reliance = .unknown) : c.known.ram = [] ∧ c.known.NoPointers := by
  simp [known, h, NoPointers]

end Controller

theorem finishFramer_unknown {f : State × FrameEnd} (h : f.1.ctl.reliance = .unknown) :
    (finishFramer f).ctl.reliance = .unknown := by
  rcases finishFramer_ctl_cases f with e | e
  · rw [e, h]
  · rw [e, Controller.fail_unknown h]

/-- No call makes anything of an unknown controller count as known. -/
theorem ExecChange.keeps_unknown {s t : State} (hr : s.ctl.reliance = .unknown) (h : ExecChange s t) :
    t.ctl.reliance = .unknown := by
  cases h with
  | buildFailed => exact Controller.afterFailure_unknown hr _
  | cancelledBuild | cancelledOperation | dropped => exact Controller.afterCancel_unknown hr _
  | commandSent cmd => exact finishFramer_unknown ((emit_reliance _ _ _).trans hr)
  | dataSent data => exact finishFramer_unknown ((splitFrom_reliance _ _ _ _).trans hr)
  | _ => exact hr

/-- Of the sequencer's steps, only one that completes a FLUSH makes anything of an unknown controller count as known. -/
theorem SeqEnd.keeps_unknown {s t : State} (hr : s.ctl.reliance = .unknown) (h : SeqEnd s t) :
    t.ctl.reliance = .unknown ∨ ∃ p ph, s.seq = .flush p ph ∧ t.seq = .idle ∧ t.result = .ok := by
  cases h with
  | goesOn _ hrel | initCompleted _ hrel => exact .inl (hrel.trans hr)
  | flushCompleted p ph hq hseq hres => exact .inr ⟨p, ph, hq, hseq, hres⟩
  | failed e _ _ hctl => exact .inl (hctl ▸ Controller.afterFailure_unknown hr s.seq)

theorem step_keeps_unknown {s t : State} (hr : s.ctl.reliance = .unknown) (hstep : step s = .next t) :
    t.ctl.reliance = .unknown ∨ ∃ p ph, s.seq = .flush p ph ∧ t.seq = .idle ∧ t.result = .ok := by
  rcases step_cases hstep with ⟨_, port, i, _, _, he⟩ | ⟨port, _, he⟩ | ⟨_, rfl⟩
  · exact .inl ((exec_change he).keeps_unknown (s := s.setPort port) hr)
  · exact (seqStep_change he).seqEnd.keeps_unknown (s := s.setPort port) hr
  · exact .inl hr

/-- Settles O48: CANCEL resets the block during BUILD's walk and ends any other operation, the controller being unknown after
both; from there only the end of a FLUSH settles it. -/
theorem cancelEffect : Obligations.CancelEffect := by
  refine ⟨fun s hbind hq => ?cancel, fun c h => Controller.known_of_unknown h, fun s t hr hstep => step_keeps_unknown hr hstep⟩
  have hc : s.cancellable = true := State.cancellable_iff.mpr ⟨hq, hbind⟩
  have hunknown := s.ctl.afterCancel_unknown_of_busy hq
  cases hwalk : s.seq.isBuildWalk with
  | true =>
    exact ⟨_, exec_cancel_of_buildWalk hc hwalk, rfl, rfl, rfl, rfl, rfl, hunknown, fun _ => ⟨rfl, rfl, rfl, rfl, rfl⟩,
      fun hno => absurd (Seq.isBuildWalk_iff.mp hwalk) (not_exists.mpr hno)⟩
  | false =>
    exact ⟨_, exec_cancel_of_session hc hwalk, rfl, rfl, rfl, rfl, rfl, hunknown,
      fun hk => absurd (Seq.isBuildWalk_iff.mpr hk) (by simp [hwalk]), fun _ => rfl⟩

end Sys2Proof.Machine

namespace Sys2Proof.Machine

/-! The abort (60_exceptions R256). -/

theorem State.raiseError_bstate_of_buildWalk {s : State} {k : Fin 15} (hq : s.seq = .init .build k) (e : Error) :
    (s.raiseError e).bstate = .failed .initializationFailed := by
  rw [State.raiseError_bstate, if_pos (Seq.isBuildWalk_iff.mpr ⟨k, hq⟩)]

theorem State.raiseError_bstate_of_not_buildWalk {s : State} (hq : ∀ k, s.seq ≠ .init .build k) (e : Error) :
    (s.raiseError e).bstate = s.bstate := by
  rw [State.raiseError_bstate, if_neg (mt Seq.isBuildWalk_iff.mp (not_exists.mpr hq))]

/-- Settles O47: `raiseError` writes `SEQ`, `RESULT`, `BSTATE` and the controller, and `BSTATE` only in a walk of BUILD. -/
theorem abortEffect : Obligations.AbortEffect := fun _ e =>
  ⟨rfl, rfl, fun _ hq => State.raiseError_bstate_of_buildWalk hq e, fun hq => State.raiseError_bstate_of_not_buildWalk hq e, rfl⟩

end Sys2Proof.Machine

namespace Sys2Proof.Machine

/-! The observer (60_exceptions R270): every operation does to the state without its observer what it does to the state with it. -/

theorem seqStep_idle {s : State} (hq : s.seq = .idle) : seqStep s = .next s := by
  rw [seqStep, hq]

/-- The same state with no observer, which has been told nothing: all that the observer must not change. -/
def State.unobserved (s : State) : State := { s with params := { s.params with observer := false }, observed := [] }

/-- The same outcome, its next state without the observer. -/
def unobservedOut : Out → Out
  | .next t => .next t.unobserved
  | .fault f => .fault f
  | .refused r => .refused r

/-- The same frame's end, its state without the observer. -/
def unobservedEnd (f : State × FrameEnd) : State × FrameEnd := (f.1.unobserved, f.2)

theorem unobservedOut_ite (c : Prop) [Decidable c] (x y : Out) :
    unobservedOut (if c then x else y) = if c then unobservedOut x else unobservedOut y :=
  apply_ite _ _ _ _

/-- States equal but for the observer differ in its presence and its record only. -/
theorem State.eq_of_unobserved_eq {s t : State} (h : t.unobserved = s.unobserved) :
    t = { s with params := { s.params with observer := t.params.observer }, observed := t.observed } := by
  calc
    t = { t.unobserved with
      params := { t.unobserved.params with observer := t.params.observer }, observed := t.observed } := rfl
    _ = { s.unobserved with
      params := { s.unobserved.params with observer := t.params.observer }, observed := t.observed } := by rw [h]

section Observer

variable (s : State)

@[simp] theorem State.unobserved_tmax : s.unobserved.params.tmax = s.params.tmax := rfl
@[simp] theorem State.unobserved_ctrlCmd : s.unobserved.params.ctrlCmd = s.params.ctrlCmd := rfl

/-- A call of the observer changes its record only. -/
theorem notify_unobserved (c : ObserverCall) : (s.notify c).unobserved = s.unobserved := by
  simp only [State.notify]
  split_ifs <;> rfl

/-- Nobody is there to be told. -/
theorem unobserved_notify (c : ObserverCall) : s.unobserved.notify c = s.unobserved := rfl

theorem takeAnswer_unobserved : s.unobserved.takeAnswer = s.takeAnswer.unobserved := by
  simp only [State.takeAnswer, State.unobserved]
  cases s.answers <;> rfl

theorem transportWrite_unobserved (frame : List Byte) :
    s.unobserved.transportWrite frame = (s.transportWrite frame).unobserved := by
  simp only [State.transportWrite, takeAnswer_unobserved]
  rfl

/-- What the observer was told before a frame was sent makes no difference to the frame. -/
theorem transportWrite_notify_unobserved (c : ObserverCall) (frame : List Byte) :
    ((s.notify c).transportWrite frame).unobserved = (s.transportWrite frame).unobserved := by
  rw [← transportWrite_unobserved, notify_unobserved, transportWrite_unobserved]

theorem sendFrame_unobserved (frame : List Byte) : s.unobserved.sendFrame frame = (s.sendFrame frame).unobserved := by
  have hstage : s.unobserved.stageFrame frame = (s.stageFrame frame).unobserved := rfl
  simp only [State.sendFrame, hstage, unobserved_notify, transportWrite_unobserved, notify_unobserved,
    transportWrite_notify_unobserved]

theorem emit_unobserved (ctrl : Byte) (payload : List Byte) :
    emit ctrl payload s.unobserved = unobservedEnd (emit ctrl payload s) := by
  rcases emit_cases ctrl payload s with ⟨hover, he⟩ | ⟨hfit, he⟩
  · rw [he]; exact emit_overflow hover
  · rw [he, emit_fits (s := s.unobserved) hfit, sendFrame_unobserved]; rfl

theorem splitFrom_unobserved (ctrl : Byte) (fuel : Nat) (data : List Byte) :
    splitFrom ctrl fuel data s.unobserved = unobservedEnd (splitFrom ctrl fuel data s) := by
  induction fuel generalizing data s with
  | zero => rfl
  | succ fuel ih =>
    cases data with
    | nil => rfl
    | cons d rest =>
      simp only [splitFrom, State.unobserved_tmax, emit_unobserved]
      rcases emit ctrl ((d :: rest).take (s.params.tmax - 1)) s with ⟨u, _ | c⟩
      · exact ih u _
      · rfl

theorem finishFramer_unobserved (f : State × FrameEnd) : finishFramer (unobservedEnd f) = (finishFramer f).unobserved := by
  obtain ⟨u, _ | c⟩ := f <;> rfl

theorem afterInit_unobserved (ctx : Ctx) (k : Fin 15) (f : State × FrameEnd) :
    afterInit ctx k (unobservedEnd f) = (afterInit ctx k f).unobserved := by
  obtain ⟨u, _ | c⟩ := f
  · simp only [unobservedEnd, afterInit]
    split_ifs <;> rfl
  · rfl

theorem afterFlush_unobserved (p : Fin 16) (ph : Phase) (n : Nat) (f : State × FrameEnd) :
    afterFlush p ph n (unobservedEnd f) = (afterFlush p ph n f).unobserved := by
  obtain ⟨u, _ | c⟩ := f
  · cases ph with
    | page | colLo | colHi => rfl
    | data o =>
      simp only [unobservedEnd, afterFlush, afterPage]
      split_ifs <;> rfl
  · rfl

theorem State.initStep_unobserved (ctx : Ctx) (k : Fin 15) :
    s.unobserved.initStep ctx k = (s.initStep ctx k).unobserved := by
  have hemit : s.unobserved.emitInit k = unobservedEnd (s.emitInit k) := emit_unobserved ..
  rw [initStep, initStep, hemit, afterInit_unobserved]

theorem State.flushStep_unobserved (p : Fin 16) (ph : Phase) :
    s.unobserved.flushStep p ph = (s.flushStep p ph).unobserved := by
  have hctrl : s.unobserved.flushCtrl ph = s.flushCtrl ph := by cases ph <;> rfl
  have hpayload : s.unobserved.flushPayload p ph = s.flushPayload p ph := by cases ph <;> rfl
  simp only [flushStep, emitFlush, hctrl, hpayload, emit_unobserved, afterFlush_unobserved]

theorem seqStep_unobserved : seqStep s.unobserved = unobservedOut (seqStep s) := by
  rcases hq : s.seq with _ | ⟨ctx, k⟩ | ⟨p, ph⟩
  · rw [seqStep_idle hq, seqStep_idle (s := s.unobserved) hq, unobservedOut]
  · rw [seqStep_init hq, seqStep_init (s := s.unobserved) hq, State.initStep_unobserved, unobservedOut]
  · rw [seqStep_flush hq, seqStep_flush (s := s.unobserved) hq, State.flushStep_unobserved, unobservedOut]

/-- No instruction reads the observer's presence or record: admission and effect are the same without it. -/
theorem exec_unobserved (i : Instr) : exec i s.unobserved = unobservedOut (exec i s) := by
  cases i with
  | startLineShort | connect | build | initializeOp | flush | cancel =>
    simp only [exec, execStartLineShort, execConnect, execBuild, execInitializeOp, execFlush, execCancel, unobservedOut_ite]
    rfl
  | clear on => rw [exec, exec, execClear, execClear, unobservedOut_ite]; rfl
  | setPixel x y on =>
    cases hr : pixelInRange x y with
    | true => simp only [exec, execSetPixel, hr, memWrite_one _ _ _ (pixelIndex_lt hr), unobservedOut_ite]; rfl
    | false => simp only [exec, execSetPixel, hr, unobservedOut_ite]; rfl
  | asBytes => simp only [exec, execAsBytes, memRead_eq _ 0 2048 (by omega), unobservedOut_ite]; rfl
  | sendCommand cmd =>
    simp only [exec, execSendCommand, State.unobserved_ctrlCmd, emit_unobserved, finishFramer_unobserved, unobservedOut_ite]
    rfl
  | sendData data =>
    simp only [exec, execSendData, split, splitFrom_unobserved, finishFramer_unobserved, unobservedOut_ite]
    rfl
  | _ => rfl

theorem runRequest_unobserved (r : Request) : runRequest r s.unobserved = unobservedOut (runRequest r s) := by
  simp only [runRequest]
  cases decode r with
  | instr i => exact exec_unobserved s i
  | reject e => rfl

/-- R270: a step does to the state without its observer what it does to the state with it. -/
theorem step_unobserved : step s.unobserved = unobservedOut (step s) := by
  have hmove : nextMove s.unobserved = nextMove s := rfl
  simp only [step, hmove]
  cases nextMove s with
  | call r q => exact runRequest_unobserved (s.setPort q) r
  | sequencer q => exact seqStep_unobserved (s.setPort q)
  | wait => rfl

end Observer

theorem eq_next_of_unobservedOut {o : Out} {t : State} (h : unobservedOut o = .next t) :
    ∃ u, o = .next u ∧ u.unobserved = t := by
  cases o with
  | next u => exact ⟨u, rfl, Host.Outcome.next.inj h⟩
  | fault f => cases h
  | refused r => cases h

/-- A step of another state with the same block leads where this one's does, but for the observer. -/
theorem step_of_unobserved_eq {s s' t : State} (h : s'.unobserved = s.unobserved) (hstep : step s = .next t) :
    ∃ u, step s' = .next u ∧ u.unobserved = t.unobserved :=
  eq_next_of_unobservedOut <| calc
    unobservedOut (step s') = step s'.unobserved := (step_unobserved s').symm
    _ = step s.unobserved := by rw [h]
    _ = unobservedOut (step s) := step_unobserved s
    _ = .next t.unobserved := by rw [hstep, unobservedOut]

/-- Settles O58: the two states are one without their observers, so their steps lead to states that are one without them; and no
step changes whether an observer is present. -/
theorem observerChangesNothing : Obligations.ObserverChangesNothing := by
  intro s t present told hstep
  obtain ⟨u, hu, heq⟩ := step_of_unobserved_eq (s := s)
    (s' := { s with params := { s.params with observer := present }, observed := told }) rfl hstep
  obtain ⟨-, hpar⟩ := configurationIsConstant _ u hu
  refine ⟨u.observed, hu.trans (congrArg Host.Outcome.next ?_)⟩
  rw [State.eq_of_unobserved_eq heq, hpar]

end Sys2Proof.Machine

namespace Sys2Proof.Machine

/-! What DROP does to the whole machine (70_reset_and_hazards R291). -/

theorem exec_drop (s : State) : exec .drop s = .next s.dropReset := rfl

namespace Controller

variable (c : Controller)

@[simp] theorem afterCancel_idle : c.afterCancel .idle = c := rfl

/-- An operation that ends while it runs leaves no cell and no pointer determined. -/
theorem afterCancel_undetermined_of_busy {q : Seq} (hq : q ≠ .idle) :
    (c.afterCancel q).ram = [] ∧ (c.afterCancel q).NoPointers := by
  cases q with
  | idle => exact absurd rfl hq
  | init ctx k => exact ⟨rfl, rfl, rfl, rfl⟩
  | flush p ph => exact ⟨rfl, rfl, rfl, rfl⟩

end Controller

/-- Settles O49: the reset values are R34's table (`resetValues`), and the controller is what a cancelled operation leaves. -/
theorem dropResetsEverything : Obligations.DropResetsEverything := by
  intro s
  obtain ⟨hfb, haddr, hbus, hbstate, hseq, hbusy, hresult, hstage⟩ := resetValues.1 s.dropReset (.inr ⟨s, exec_drop s⟩)
  refine ⟨s.dropReset, exec_drop s, hfb, haddr, hbus, hbstate, hseq, hbusy, hresult, hstage, s.dropReset_cfg,
    s.dropReset_params, s.dropReset_wire, s.wireSinceReset_dropReset, fun hidle => ?idle, fun hrun => ?running⟩
  case idle => rw [State.dropReset_ctl, hidle, Controller.afterCancel_idle]
  case running =>
    exact ⟨s.ctl.afterCancel_unknown_of_busy hrun, s.ctl.afterCancel_undetermined_of_busy hrun⟩

end Sys2Proof.Machine
